-- ==== Sys2Proof/Word.lean ====
section
/-! DEFINITION. The word and byte types of the cpuwu CORE (spec/00_scope.md R7, R9). -/

namespace Sys2Proof

/-- A 32-bit value: a register, an address, an instruction word (00_scope.md R7: XLEN, FLEN, VA_BITS, PA_BITS). -/
abbrev Word := BitVec 32

/-- One byte of physical memory (20_memory.md R60). -/
abbrev Byte := BitVec 8

end Sys2Proof
end

