-- ==== Sys2Proof/Syntax.lean ====
section
/-! DEFINITION. The instructions of cpuwu-ref v1: one constructor per row of spec/opcode_table.json, in the table's
order (spec/30_encoding.md R110). Immediates are held as the raw field of the word; the meaning extends them (R103). -/

namespace Sys2Proof

/-- A 4-bit register field naming x0..x15 (30_encoding.md R102); x13 is the pc, x15 the stack pointer (10_state.md R20). -/
abbrev XReg := Fin 16

/-- A 4-bit register field naming f0..f15 (30_encoding.md R102). -/
abbrev FReg := Fin 16

/-- The instructions (30_encoding.md R110). In loads and stores the first register is `rt`, the data register (R102).
A shift's `imm` is the whole imm16 field, whose bits 15:5 must be zero (R103). -/
inductive Instr where
  -- System and privileged instructions (spec/44_privileged.md)
  /-- `nop` (R301). -/
  | nop
  /-- `halt` (R302). -/
  | halt
  /-- `iret` (R309). -/
  | iret
  /-- `rdfl xd` (R303). -/
  | rdfl (xd : XReg)
  /-- `wrfl xs` (R304). -/
  | wrfl (xs : XReg)
  /-- `rdmk xd` (R305). -/
  | rdmk (xd : XReg)
  /-- `wrmk xs` (R306). -/
  | wrmk (xs : XReg)
  /-- `rdmm xd` (R307). -/
  | rdmm (xd : XReg)
  /-- `wrmm xs` (R308). -/
  | wrmm (xs : XReg)
  -- Integer instructions (spec/41_integer.md)
  /-- `add xd, xs1, xs2` (R174). -/
  | add (xd xs1 xs2 : XReg)
  /-- `sub xd, xs1, xs2` (R175). -/
  | sub (xd xs1 xs2 : XReg)
  /-- `mul xd, xs1, xs2` (R176). -/
  | mul (xd xs1 xs2 : XReg)
  /-- `divu xd, xs1, xs2` (R177). -/
  | divu (xd xs1 xs2 : XReg)
  /-- `divs xd, xs1, xs2` (R178). -/
  | divs (xd xs1 xs2 : XReg)
  /-- `remu xd, xs1, xs2` (R179). -/
  | remu (xd xs1 xs2 : XReg)
  /-- `rems xd, xs1, xs2` (R180). -/
  | rems (xd xs1 xs2 : XReg)
  /-- `and xd, xs1, xs2` (R181). -/
  | and (xd xs1 xs2 : XReg)
  /-- `or xd, xs1, xs2` (R182). -/
  | or (xd xs1 xs2 : XReg)
  /-- `xor xd, xs1, xs2` (R183). -/
  | xor (xd xs1 xs2 : XReg)
  /-- `shl xd, xs1, xs2` (R184). -/
  | shl (xd xs1 xs2 : XReg)
  /-- `shr xd, xs1, xs2` (R185). -/
  | shr (xd xs1 xs2 : XReg)
  /-- `sar xd, xs1, xs2` (R186). -/
  | sar (xd xs1 xs2 : XReg)
  /-- `cmp xs1, xs2` (R187). -/
  | cmp (xs1 xs2 : XReg)
  /-- `mov xd, xs` (R188). -/
  | mov (xd xs : XReg)
  /-- `not xd, xs` (R189). -/
  | not (xd xs : XReg)
  /-- `addi xd, xs, simm16` (R190). -/
  | addi (xd xs : XReg) (imm : BitVec 16)
  /-- `andi xd, xs, uimm16` (R191). -/
  | andi (xd xs : XReg) (imm : BitVec 16)
  /-- `ori xd, xs, uimm16` (R192). -/
  | ori (xd xs : XReg) (imm : BitVec 16)
  /-- `xori xd, xs, uimm16` (R193). -/
  | xori (xd xs : XReg) (imm : BitVec 16)
  /-- `shli xd, xs, uimm5` (R194). -/
  | shli (xd xs : XReg) (imm : BitVec 16)
  /-- `shri xd, xs, uimm5` (R195). -/
  | shri (xd xs : XReg) (imm : BitVec 16)
  /-- `sari xd, xs, uimm5` (R196). -/
  | sari (xd xs : XReg) (imm : BitVec 16)
  /-- `cmpi xs, simm16` (R197). -/
  | cmpi (xs : XReg) (imm : BitVec 16)
  /-- `lui xd, uimm16` (R198). -/
  | lui (xd : XReg) (imm : BitVec 16)
  /-- `movi xd, simm16` (R199). -/
  | movi (xd : XReg) (imm : BitVec 16)
  -- Load, store and stack instructions (spec/45_memory_access.md)
  /-- `ldw xt, [xs+simm16]` (R331). -/
  | ldw (xt xs : XReg) (imm : BitVec 16)
  /-- `ldh xt, [xs+simm16]` (R332). -/
  | ldh (xt xs : XReg) (imm : BitVec 16)
  /-- `ldhs xt, [xs+simm16]` (R333). -/
  | ldhs (xt xs : XReg) (imm : BitVec 16)
  /-- `ldb xt, [xs+simm16]` (R334). -/
  | ldb (xt xs : XReg) (imm : BitVec 16)
  /-- `ldbs xt, [xs+simm16]` (R335). -/
  | ldbs (xt xs : XReg) (imm : BitVec 16)
  /-- `stw xt, [xs+simm16]` (R336). -/
  | stw (xt xs : XReg) (imm : BitVec 16)
  /-- `sth xt, [xs+simm16]` (R337). -/
  | sth (xt xs : XReg) (imm : BitVec 16)
  /-- `stb xt, [xs+simm16]` (R338). -/
  | stb (xt xs : XReg) (imm : BitVec 16)
  /-- `fld ft, [xs+simm16]` (R339). -/
  | fld (ft : FReg) (xs : XReg) (imm : BitVec 16)
  /-- `fst ft, [xs+simm16]` (R340). -/
  | fst (ft : FReg) (xs : XReg) (imm : BitVec 16)
  /-- `push xs` (R341). -/
  | push (xs : XReg)
  /-- `pop xd` (R342). -/
  | pop (xd : XReg)
  -- Control-transfer instructions (spec/43_control.md)
  /-- `bal label` (R262). -/
  | bal (imm : BitVec 19)
  /-- `beq label` (R263). -/
  | beq (imm : BitVec 19)
  /-- `bne label` (R264). -/
  | bne (imm : BitVec 19)
  /-- `bcs label` (R265). -/
  | bcs (imm : BitVec 19)
  /-- `bcc label` (R266). -/
  | bcc (imm : BitVec 19)
  /-- `bmi label` (R267). -/
  | bmi (imm : BitVec 19)
  /-- `bpl label` (R268). -/
  | bpl (imm : BitVec 19)
  /-- `bvs label` (R269). -/
  | bvs (imm : BitVec 19)
  /-- `bvc label` (R270). -/
  | bvc (imm : BitVec 19)
  /-- `bhi label` (R271). -/
  | bhi (imm : BitVec 19)
  /-- `bls label` (R272). -/
  | bls (imm : BitVec 19)
  /-- `bge label` (R273). -/
  | bge (imm : BitVec 19)
  /-- `blt label` (R274). -/
  | blt (imm : BitVec 19)
  /-- `bgt label` (R275). -/
  | bgt (imm : BitVec 19)
  /-- `ble label` (R276). -/
  | ble (imm : BitVec 19)
  /-- `bod label` (R277). -/
  | bod (imm : BitVec 19)
  /-- `bev label` (R278). -/
  | bev (imm : BitVec 19)
  /-- `bnan label` (R279). -/
  | bnan (imm : BitVec 19)
  /-- `binf label` (R280). -/
  | binf (imm : BitVec 19)
  /-- `jmp label` (R281). -/
  | jmp (imm : BitVec 24)
  /-- `call label` (R282). -/
  | call (imm : BitVec 24)
  /-- `jmpr xs` (R283). -/
  | jmpr (xs : XReg)
  /-- `callr xs` (R284). -/
  | callr (xs : XReg)
  /-- `ret` (R285). -/
  | ret
  -- Floating-point instructions (spec/42_float.md)
  /-- `fadd fd, fs1, fs2` (R226). -/
  | fadd (fd fs1 fs2 : FReg)
  /-- `fsub fd, fs1, fs2` (R227). -/
  | fsub (fd fs1 fs2 : FReg)
  /-- `fmul fd, fs1, fs2` (R228). -/
  | fmul (fd fs1 fs2 : FReg)
  /-- `fdiv fd, fs1, fs2` (R229). -/
  | fdiv (fd fs1 fs2 : FReg)
  /-- `fmov fd, fs` (R230). -/
  | fmov (fd fs : FReg)
  /-- `itof fd, xs` (R231). -/
  | itof (fd : FReg) (xs : XReg)
  /-- `ftoi xd, fs` (R232). -/
  | ftoi (xd : XReg) (fs : FReg)
  /-- `movxf fd, xs` (R233). -/
  | movxf (fd : FReg) (xs : XReg)
  /-- `movfx xd, fs` (R234). -/
  | movfx (xd : XReg) (fs : FReg)
  /-- `feq xd, fs1, fs2` (R235). -/
  | feq (xd : XReg) (fs1 fs2 : FReg)
  /-- `flt xd, fs1, fs2` (R236). -/
  | flt (xd : XReg) (fs1 fs2 : FReg)
  /-- `fle xd, fs1, fs2` (R237). -/
  | fle (xd : XReg) (fs1 fs2 : FReg)
  deriving DecidableEq, Repr

end Sys2Proof
end

