-- ==== Sys2Proof/WellFormed.lean ====
section
/-! DEFINITION. Which terms of `Instr` are instructions. The types of the fields already bound every register field and
every immediate field; the one remaining condition is the shift amount's (spec/30_encoding.md R103, R104). -/

namespace Sys2Proof

/-- Bits 15:5 of an immediate shift's imm16 field are zero (30_encoding.md R103: "Bits 15:5 must be zero"). -/
def shiftFieldOk (imm : BitVec 16) : Bool := imm.extractLsb' 5 11 == 0#11

/-- The check of one instruction, constructor by constructor. -/
def Instr.wf : Instr → Bool
  | .shli _ _ imm => shiftFieldOk imm
  | .shri _ _ imm => shiftFieldOk imm
  | .sari _ _ imm => shiftFieldOk imm
  | .nop | .halt | .iret | .rdfl _ | .wrfl _ | .rdmk _ | .wrmk _ | .rdmm _ | .wrmm _ | .add _ _ _ | .sub _ _ _
  | .mul _ _ _ | .divu _ _ _ | .divs _ _ _ | .remu _ _ _ | .rems _ _ _ | .and _ _ _ | .or _ _ _ | .xor _ _ _
  | .shl _ _ _ | .shr _ _ _ | .sar _ _ _ | .cmp _ _ | .mov _ _ | .not _ _ | .addi _ _ _ | .andi _ _ _ | .ori _ _ _
  | .xori _ _ _ | .cmpi _ _ | .lui _ _ | .movi _ _ | .ldw _ _ _ | .ldh _ _ _ | .ldhs _ _ _ | .ldb _ _ _ | .ldbs _ _ _
  | .stw _ _ _ | .sth _ _ _ | .stb _ _ _ | .fld _ _ _ | .fst _ _ _ | .push _ | .pop _ | .bal _ | .beq _ | .bne _
  | .bcs _ | .bcc _ | .bmi _ | .bpl _ | .bvs _ | .bvc _ | .bhi _ | .bls _ | .bge _ | .blt _ | .bgt _ | .ble _
  | .bod _ | .bev _ | .bnan _ | .binf _ | .jmp _ | .call _ | .jmpr _ | .callr _ | .ret | .fadd _ _ _ | .fsub _ _ _
  | .fmul _ _ _ | .fdiv _ _ _ | .fmov _ _ | .itof _ _ | .ftoi _ _ | .movxf _ _ | .movfx _ _ | .feq _ _ _ | .flt _ _ _
  | .fle _ _ _ => true

/-- An instruction that some word encodes. -/
abbrev Instr.WellFormed (i : Instr) : Prop := i.wf = true

end Sys2Proof
end

