-- ==== Sys2Proof/Decode.lean ====
section
/-! DEFINITION. The cpuwu-ref v1 decoder and encoder (spec/30_encoding.md). The decoder is total and names what it
rejects; the encoder writes the word of an instruction from the same formats. Byte order is settled here, once. -/

namespace Sys2Proof

/-! ## Bytes of a word: little-endian (20_memory.md R63, R64) -/

/-- The value of bytes in ascending address order (20_memory.md R64). -/
def leWord : List Byte → Word
  | [] => 0#32
  | b :: bs => b.setWidth 32 ||| (leWord bs <<< 8)

/-- The `n` low bytes of a value, least significant first (20_memory.md R61). -/
def leBytes : Nat → Word → List Byte
  | 0, _ => []
  | n + 1, v => v.setWidth 8 :: leBytes n (v >>> 8)

/-! ## Fields of a word (30_encoding.md R101 to R103) -/

/-- The major opcode, bits 31:24 (R100). -/
def opcodeField (w : Word) : BitVec 8 := w.extractLsb' 24 8

/-- The register field rd, bits 23:20 (R101). -/
def rdField (w : Word) : Fin 16 := (w.extractLsb' 20 4).toFin

/-- The register field rs1, bits 19:16 (R101). -/
def rs1Field (w : Word) : Fin 16 := (w.extractLsb' 16 4).toFin

/-- The register field rs2, bits 15:12 (R101). -/
def rs2Field (w : Word) : Fin 16 := (w.extractLsb' 12 4).toFin

/-- The immediate of format I, bits 15:0 (R101). -/
def imm16Field (w : Word) : BitVec 16 := w.extractLsb' 0 16

/-- The condition code of format B, bits 23:19 (R101). -/
def condField (w : Word) : BitVec 5 := w.extractLsb' 19 5

/-- The immediate of format B, bits 18:0 (R101). -/
def imm19Field (w : Word) : BitVec 19 := w.extractLsb' 0 19

/-- The immediate of format J, bits 23:0 (R101). -/
def imm24Field (w : Word) : BitVec 24 := w.extractLsb' 0 24

/-! ## Decoding -/

/-- Why a word, or a list of bytes, is no instruction. -/
inductive DecodeError where
  /-- The major opcode is one of R105's unassigned ones. -/
  | unassignedOpcode (opcode : BitVec 8)
  /-- The opcode is assigned and a must-be-zero bit is set (R104). -/
  | reservedBitsSet (word : Word)
  /-- A branch with condition code 19..31 (R106). -/
  | unassignedCondition (cond : BitVec 5)
  /-- Fewer than four bytes were given (R100: every instruction is 4 bytes). -/
  | tooShort
  deriving DecidableEq, Repr

/-- `i` when the must-be-zero bits of the word are all zero (R104); `mustBeZero` is R110's column. -/
def zeroBits (w mustBeZero : Word) (i : Instr) : Except DecodeError Instr :=
  if w &&& mustBeZero = 0#32 then .ok i else .error (.reservedBitsSet w)

/-- Format B: the condition code selects the row (R106, R110). -/
def decodeBranch (w : Word) : Except DecodeError Instr :=
  match (condField w).toNat with
  | 0 => .ok (.bal (imm19Field w))
  | 1 => .ok (.beq (imm19Field w))
  | 2 => .ok (.bne (imm19Field w))
  | 3 => .ok (.bcs (imm19Field w))
  | 4 => .ok (.bcc (imm19Field w))
  | 5 => .ok (.bmi (imm19Field w))
  | 6 => .ok (.bpl (imm19Field w))
  | 7 => .ok (.bvs (imm19Field w))
  | 8 => .ok (.bvc (imm19Field w))
  | 9 => .ok (.bhi (imm19Field w))
  | 10 => .ok (.bls (imm19Field w))
  | 11 => .ok (.bge (imm19Field w))
  | 12 => .ok (.blt (imm19Field w))
  | 13 => .ok (.bgt (imm19Field w))
  | 14 => .ok (.ble (imm19Field w))
  | 15 => .ok (.bod (imm19Field w))
  | 16 => .ok (.bev (imm19Field w))
  | 17 => .ok (.bnan (imm19Field w))
  | 18 => .ok (.binf (imm19Field w))
  | _ => .error (.unassignedCondition (condField w))

/-- The decoder (R109, R110): the major opcode selects the row, and its must-be-zero bits are checked. -/
def decodeWord (w : Word) : Except DecodeError Instr :=
  match (opcodeField w).toNat with
  | 0x01 => zeroBits w 0xFFFFFF .nop
  | 0x02 => zeroBits w 0xFFFFFF .halt
  | 0x03 => zeroBits w 0xFFFFFF .iret
  | 0x04 => zeroBits w 0x0FFFFF (.rdfl (rdField w))
  | 0x05 => zeroBits w 0xF0FFFF (.wrfl (rs1Field w))
  | 0x06 => zeroBits w 0x0FFFFF (.rdmk (rdField w))
  | 0x07 => zeroBits w 0xF0FFFF (.wrmk (rs1Field w))
  | 0x08 => zeroBits w 0x0FFFFF (.rdmm (rdField w))
  | 0x09 => zeroBits w 0xF0FFFF (.wrmm (rs1Field w))
  | 0x10 => zeroBits w 0x000FFF (.add (rdField w) (rs1Field w) (rs2Field w))
  | 0x11 => zeroBits w 0x000FFF (.sub (rdField w) (rs1Field w) (rs2Field w))
  | 0x12 => zeroBits w 0x000FFF (.mul (rdField w) (rs1Field w) (rs2Field w))
  | 0x13 => zeroBits w 0x000FFF (.divu (rdField w) (rs1Field w) (rs2Field w))
  | 0x14 => zeroBits w 0x000FFF (.divs (rdField w) (rs1Field w) (rs2Field w))
  | 0x15 => zeroBits w 0x000FFF (.remu (rdField w) (rs1Field w) (rs2Field w))
  | 0x16 => zeroBits w 0x000FFF (.rems (rdField w) (rs1Field w) (rs2Field w))
  | 0x17 => zeroBits w 0x000FFF (.and (rdField w) (rs1Field w) (rs2Field w))
  | 0x18 => zeroBits w 0x000FFF (.or (rdField w) (rs1Field w) (rs2Field w))
  | 0x19 => zeroBits w 0x000FFF (.xor (rdField w) (rs1Field w) (rs2Field w))
  | 0x1A => zeroBits w 0x000FFF (.shl (rdField w) (rs1Field w) (rs2Field w))
  | 0x1B => zeroBits w 0x000FFF (.shr (rdField w) (rs1Field w) (rs2Field w))
  | 0x1C => zeroBits w 0x000FFF (.sar (rdField w) (rs1Field w) (rs2Field w))
  | 0x1D => zeroBits w 0xF00FFF (.cmp (rs1Field w) (rs2Field w))
  | 0x1E => zeroBits w 0x00FFFF (.mov (rdField w) (rs1Field w))
  | 0x1F => zeroBits w 0x00FFFF (.not (rdField w) (rs1Field w))
  | 0x20 => .ok (.addi (rdField w) (rs1Field w) (imm16Field w))
  | 0x21 => .ok (.andi (rdField w) (rs1Field w) (imm16Field w))
  | 0x22 => .ok (.ori (rdField w) (rs1Field w) (imm16Field w))
  | 0x23 => .ok (.xori (rdField w) (rs1Field w) (imm16Field w))
  | 0x24 => zeroBits w 0x00FFE0 (.shli (rdField w) (rs1Field w) (imm16Field w))
  | 0x25 => zeroBits w 0x00FFE0 (.shri (rdField w) (rs1Field w) (imm16Field w))
  | 0x26 => zeroBits w 0x00FFE0 (.sari (rdField w) (rs1Field w) (imm16Field w))
  | 0x27 => zeroBits w 0xF00000 (.cmpi (rs1Field w) (imm16Field w))
  | 0x28 => zeroBits w 0x0F0000 (.lui (rdField w) (imm16Field w))
  | 0x29 => zeroBits w 0x0F0000 (.movi (rdField w) (imm16Field w))
  | 0x30 => .ok (.ldw (rdField w) (rs1Field w) (imm16Field w))
  | 0x31 => .ok (.ldh (rdField w) (rs1Field w) (imm16Field w))
  | 0x32 => .ok (.ldhs (rdField w) (rs1Field w) (imm16Field w))
  | 0x33 => .ok (.ldb (rdField w) (rs1Field w) (imm16Field w))
  | 0x34 => .ok (.ldbs (rdField w) (rs1Field w) (imm16Field w))
  | 0x35 => .ok (.stw (rdField w) (rs1Field w) (imm16Field w))
  | 0x36 => .ok (.sth (rdField w) (rs1Field w) (imm16Field w))
  | 0x37 => .ok (.stb (rdField w) (rs1Field w) (imm16Field w))
  | 0x38 => .ok (.fld (rdField w) (rs1Field w) (imm16Field w))
  | 0x39 => .ok (.fst (rdField w) (rs1Field w) (imm16Field w))
  | 0x3A => zeroBits w 0xF0FFFF (.push (rs1Field w))
  | 0x3B => zeroBits w 0x0FFFFF (.pop (rdField w))
  | 0x40 => decodeBranch w
  | 0x41 => .ok (.jmp (imm24Field w))
  | 0x42 => .ok (.call (imm24Field w))
  | 0x43 => zeroBits w 0xF0FFFF (.jmpr (rs1Field w))
  | 0x44 => zeroBits w 0xF0FFFF (.callr (rs1Field w))
  | 0x45 => zeroBits w 0xFFFFFF .ret
  | 0x50 => zeroBits w 0x000FFF (.fadd (rdField w) (rs1Field w) (rs2Field w))
  | 0x51 => zeroBits w 0x000FFF (.fsub (rdField w) (rs1Field w) (rs2Field w))
  | 0x52 => zeroBits w 0x000FFF (.fmul (rdField w) (rs1Field w) (rs2Field w))
  | 0x53 => zeroBits w 0x000FFF (.fdiv (rdField w) (rs1Field w) (rs2Field w))
  | 0x54 => zeroBits w 0x00FFFF (.fmov (rdField w) (rs1Field w))
  | 0x55 => zeroBits w 0x00FFFF (.itof (rdField w) (rs1Field w))
  | 0x56 => zeroBits w 0x00FFFF (.ftoi (rdField w) (rs1Field w))
  | 0x57 => zeroBits w 0x00FFFF (.movxf (rdField w) (rs1Field w))
  | 0x58 => zeroBits w 0x00FFFF (.movfx (rdField w) (rs1Field w))
  | 0x59 => zeroBits w 0x000FFF (.feq (rdField w) (rs1Field w) (rs2Field w))
  | 0x5A => zeroBits w 0x000FFF (.flt (rdField w) (rs1Field w) (rs2Field w))
  | 0x5B => zeroBits w 0x000FFF (.fle (rdField w) (rs1Field w) (rs2Field w))
  | _ => .error (.unassignedOpcode (opcodeField w))

/-- The decoder as R109 types it, `decode : u32 -> Option Operation`: the default of the parameter DECODER (R117). -/
def decode (w : Word) : Option Instr := (decodeWord w).toOption

/-- The instruction at the head of a list of bytes, and the bytes after it (R100, R108). -/
def decodeBytes : List Byte → Except DecodeError (Instr × List Byte)
  | b0 :: b1 :: b2 :: b3 :: rest =>
    match decodeWord (leWord [b0, b1, b2, b3]) with
    | .ok i => .ok (i, rest)
    | .error e => .error e
  | [] | [_] | [_, _] | [_, _, _] => .error .tooShort

/-- The instruction the decoder reads from an opcode-table row's `nbits` bits `w`, bit 0 the least significant: the
bits are laid out as the four bytes the hardware stores (20_memory.md R63) and given to the decoder. -/
def decodeTableWord (nbits w : Nat) : Option Instr :=
  match decodeBytes (leBytes 4 (BitVec.ofNat 32 (w % 2 ^ nbits))) with
  | .ok (i, _) => some i
  | .error _ => none

/-! ## Encoding -/

/-- A register number as its 4-bit field (R102). -/
def regBits (r : Fin 16) : BitVec 4 := BitVec.ofFin r

/-- Format N (R101). -/
def encodeN (op : BitVec 8) : Word := op ++ 0#24

/-- Format R (R101). -/
def encodeR (op : BitVec 8) (rd rs1 rs2 : Fin 16) : Word :=
  op ++ regBits rd ++ regBits rs1 ++ regBits rs2 ++ 0#12

/-- Format I (R101). -/
def encodeI (op : BitVec 8) (rd rs1 : Fin 16) (imm : BitVec 16) : Word := op ++ regBits rd ++ regBits rs1 ++ imm

/-- Format B (R101). -/
def encodeB (cond : BitVec 5) (imm : BitVec 19) : Word := 0x40#8 ++ cond ++ imm

/-- Format J (R101). -/
def encodeJ (op : BitVec 8) (imm : BitVec 24) : Word := op ++ imm

/-- The word of an instruction (R110): opcodes and unused fields as the table gives them. -/
def encode : Instr → Word
  | .nop => encodeN 0x01
  | .halt => encodeN 0x02
  | .iret => encodeN 0x03
  | .rdfl xd => encodeR 0x04 xd 0 0
  | .wrfl xs => encodeR 0x05 0 xs 0
  | .rdmk xd => encodeR 0x06 xd 0 0
  | .wrmk xs => encodeR 0x07 0 xs 0
  | .rdmm xd => encodeR 0x08 xd 0 0
  | .wrmm xs => encodeR 0x09 0 xs 0
  | .add xd xs1 xs2 => encodeR 0x10 xd xs1 xs2
  | .sub xd xs1 xs2 => encodeR 0x11 xd xs1 xs2
  | .mul xd xs1 xs2 => encodeR 0x12 xd xs1 xs2
  | .divu xd xs1 xs2 => encodeR 0x13 xd xs1 xs2
  | .divs xd xs1 xs2 => encodeR 0x14 xd xs1 xs2
  | .remu xd xs1 xs2 => encodeR 0x15 xd xs1 xs2
  | .rems xd xs1 xs2 => encodeR 0x16 xd xs1 xs2
  | .and xd xs1 xs2 => encodeR 0x17 xd xs1 xs2
  | .or xd xs1 xs2 => encodeR 0x18 xd xs1 xs2
  | .xor xd xs1 xs2 => encodeR 0x19 xd xs1 xs2
  | .shl xd xs1 xs2 => encodeR 0x1A xd xs1 xs2
  | .shr xd xs1 xs2 => encodeR 0x1B xd xs1 xs2
  | .sar xd xs1 xs2 => encodeR 0x1C xd xs1 xs2
  | .cmp xs1 xs2 => encodeR 0x1D 0 xs1 xs2
  | .mov xd xs => encodeR 0x1E xd xs 0
  | .not xd xs => encodeR 0x1F xd xs 0
  | .addi xd xs imm => encodeI 0x20 xd xs imm
  | .andi xd xs imm => encodeI 0x21 xd xs imm
  | .ori xd xs imm => encodeI 0x22 xd xs imm
  | .xori xd xs imm => encodeI 0x23 xd xs imm
  | .shli xd xs imm => encodeI 0x24 xd xs imm
  | .shri xd xs imm => encodeI 0x25 xd xs imm
  | .sari xd xs imm => encodeI 0x26 xd xs imm
  | .cmpi xs imm => encodeI 0x27 0 xs imm
  | .lui xd imm => encodeI 0x28 xd 0 imm
  | .movi xd imm => encodeI 0x29 xd 0 imm
  | .ldw xt xs imm => encodeI 0x30 xt xs imm
  | .ldh xt xs imm => encodeI 0x31 xt xs imm
  | .ldhs xt xs imm => encodeI 0x32 xt xs imm
  | .ldb xt xs imm => encodeI 0x33 xt xs imm
  | .ldbs xt xs imm => encodeI 0x34 xt xs imm
  | .stw xt xs imm => encodeI 0x35 xt xs imm
  | .sth xt xs imm => encodeI 0x36 xt xs imm
  | .stb xt xs imm => encodeI 0x37 xt xs imm
  | .fld ft xs imm => encodeI 0x38 ft xs imm
  | .fst ft xs imm => encodeI 0x39 ft xs imm
  | .push xs => encodeR 0x3A 0 xs 0
  | .pop xd => encodeR 0x3B xd 0 0
  | .bal imm => encodeB 0 imm
  | .beq imm => encodeB 1 imm
  | .bne imm => encodeB 2 imm
  | .bcs imm => encodeB 3 imm
  | .bcc imm => encodeB 4 imm
  | .bmi imm => encodeB 5 imm
  | .bpl imm => encodeB 6 imm
  | .bvs imm => encodeB 7 imm
  | .bvc imm => encodeB 8 imm
  | .bhi imm => encodeB 9 imm
  | .bls imm => encodeB 10 imm
  | .bge imm => encodeB 11 imm
  | .blt imm => encodeB 12 imm
  | .bgt imm => encodeB 13 imm
  | .ble imm => encodeB 14 imm
  | .bod imm => encodeB 15 imm
  | .bev imm => encodeB 16 imm
  | .bnan imm => encodeB 17 imm
  | .binf imm => encodeB 18 imm
  | .jmp imm => encodeJ 0x41 imm
  | .call imm => encodeJ 0x42 imm
  | .jmpr xs => encodeR 0x43 0 xs 0
  | .callr xs => encodeR 0x44 0 xs 0
  | .ret => encodeN 0x45
  | .fadd fd fs1 fs2 => encodeR 0x50 fd fs1 fs2
  | .fsub fd fs1 fs2 => encodeR 0x51 fd fs1 fs2
  | .fmul fd fs1 fs2 => encodeR 0x52 fd fs1 fs2
  | .fdiv fd fs1 fs2 => encodeR 0x53 fd fs1 fs2
  | .fmov fd fs => encodeR 0x54 fd fs 0
  | .itof fd xs => encodeR 0x55 fd xs 0
  | .ftoi xd fs => encodeR 0x56 xd fs 0
  | .movxf fd xs => encodeR 0x57 fd xs 0
  | .movfx xd fs => encodeR 0x58 xd fs 0
  | .feq xd fs1 fs2 => encodeR 0x59 xd fs1 fs2
  | .flt xd fs1 fs2 => encodeR 0x5A xd fs1 fs2
  | .fle xd fs1 fs2 => encodeR 0x5B xd fs1 fs2

end Sys2Proof
end

