-- ==== Sys2Proof/Config.lean ====
section
/-! DEFINITION. The implementation parameters of spec/00_scope.md R7 at the defaults the spec gives them, and the open
parameters INIT_REGS and INIT_MEM of spec/92_eei_decisions.md D41 at the values the assumption log names.
The decoder, the remaining parameter, is an argument of `Machine.cycle`. -/

namespace Sys2Proof.Config

/-- VECTOR_BASE: the vector table's physical address (00_scope.md R7, D29). -/
def vectorBase : Word := 0x00000000#32

/-- SAVE_BASE: the save area's physical address (00_scope.md R7, D29). -/
def saveBase : Word := 0x00000040#32

/-- RESET_PC: the program counter after reset (00_scope.md R7, 70_reset_and_hazards.md R420). -/
def resetPc : Word := 0x00000100#32

/-- CANONICAL_NAN: the one NaN an arithmetic instruction writes (00_scope.md R7, 42_float.md R222). -/
def canonicalNaN : Word := 0x7FC00000#32

/-- INIT_REGS for an x register other than x13. DESIGN CHOICE (unsafe): the spec leaves it open
(70_reset_and_hazards.md R421); log entry 1. -/
def initX : Word := 0x00000000#32

/-- INIT_REGS for an f register. DESIGN CHOICE (unsafe): the spec leaves it open (70_reset_and_hazards.md R421);
log entry 2. -/
def initF : Word := 0x00000000#32

/-- INIT_MEM: what a byte that nothing has written reads as. DESIGN CHOICE (unsafe): the spec leaves it open
(70_reset_and_hazards.md R422); log entry 3. -/
def initByte : Byte := 0x00#8

/-- The fields of the flags word (10_state.md R26). -/
inductive FlagField where
  | mask | lll | z | v | c | n | p | a | f | r | m
  deriving DecidableEq, Repr

/-- FLAGS_LAYOUT: the lowest bit of each field (10_state.md R26, R37). `mask` is 8 bits wide, `lll` 3, the others 1. -/
def flagsLayout : FlagField → Nat
  | .mask => 0
  | .lll => 8
  | .z => 11
  | .v => 12
  | .c => 13
  | .n => 14
  | .p => 15
  | .a => 16
  | .f => 17
  | .r => 18
  | .m => 19

/-- The permission bits of a second-level page-table entry (20_memory.md R79). -/
inductive PteBit where
  | used | readable | writable | executable
  deriving DecidableEq, Repr

/-- The place of each permission bit, kept in one definition (20_memory.md R79, 93_implementation_defined.md U11). -/
def pteLayout : PteBit → Nat
  | .used => 31
  | .readable => 30
  | .writable => 29
  | .executable => 28

end Sys2Proof.Config
end

