-- ==== Sys2Proof/Machine/Flags.lean ====
section
/-! DEFINITION. The FlagsCodec (spec/10_state.md R35, R36), the two category updates of Retire (spec/40_engine.md R153,
R154), and the carry and overflow rules of spec/41_integer.md R172. -/

namespace Sys2Proof.Machine

open Sys2Proof.Config

/-! ## The FlagsCodec -/

/-- The fields of the flags word as a record (10_state.md R35). -/
structure FlagSet where
  /-- MASK, the interrupt mask: bit i governs line i (R28). -/
  mask : BitVec 8
  /-- LLL, the line most recently serviced (R29). -/
  lll : BitVec 3
  /-- Z: the last integer result is zero. -/
  z : Bool
  /-- V: the last integer operation overflowed. -/
  v : Bool
  /-- C: the last integer operation produced a carry or borrow. -/
  c : Bool
  /-- N: the last integer result has its sign bit set. -/
  n : Bool
  /-- P: the last integer result has its least significant bit set. -/
  p : Bool
  /-- A: the last float result is a NaN. -/
  a : Bool
  /-- F: the last float result is an infinity. -/
  f : Bool
  /-- R: true in the User ring (R32). -/
  r : Bool
  /-- M: true when accesses are translated (R33). -/
  m : Bool
  deriving DecidableEq, Repr

/-- A one-bit field at its place in the word. -/
def flagBit (field : FlagField) (b : Bool) : Word := (BitVec.ofBool b).setWidth 32 <<< flagsLayout field

/-- `decode` of the FlagsCodec: each field from its bits, the reserved bits ignored (R35). -/
def FlagsCodec.decode (w : Word) : FlagSet where
  mask := w.extractLsb' (flagsLayout .mask) 8
  lll := w.extractLsb' (flagsLayout .lll) 3
  z := w.getLsbD (flagsLayout .z)
  v := w.getLsbD (flagsLayout .v)
  c := w.getLsbD (flagsLayout .c)
  n := w.getLsbD (flagsLayout .n)
  p := w.getLsbD (flagsLayout .p)
  a := w.getLsbD (flagsLayout .a)
  f := w.getLsbD (flagsLayout .f)
  r := w.getLsbD (flagsLayout .r)
  m := w.getLsbD (flagsLayout .m)

/-- `encode` of the FlagsCodec: each field at its bits, the reserved bits zero (R35). -/
def FlagsCodec.encode (s : FlagSet) : Word :=
  (s.mask.setWidth 32 <<< flagsLayout .mask) ||| (s.lll.setWidth 32 <<< flagsLayout .lll)
    ||| flagBit .z s.z ||| flagBit .v s.v ||| flagBit .c s.c ||| flagBit .n s.n ||| flagBit .p s.p
    ||| flagBit .a s.a ||| flagBit .f s.f ||| flagBit .r s.r ||| flagBit .m s.m

/-- The value an architectural write of flags stores: the written value through the codec (10_state.md R27). -/
def codecFlags (w : Word) : Word := FlagsCodec.encode (FlagsCodec.decode w)

/-! ## The category updates of Retire -/

/-- What an integer-result instruction hands to Retire: its result and the c and v of its rule (40_engine.md R153). -/
structure IntResult where
  /-- The 32-bit result. -/
  r : Word
  /-- To flags.C. -/
  c : Bool
  /-- To flags.V. -/
  v : Bool
  deriving DecidableEq, Repr

/-- The integer-result update on the record of fields (40_engine.md R153). -/
def FlagSet.afterInt (s : FlagSet) (res : IntResult) : FlagSet :=
  { s with z := res.r == 0#32, n := res.r.getLsbD 31, p := res.r.getLsbD 0, c := res.c, v := res.v }

/-- The integer-result update of the flags word. -/
def intFlags (w : Word) (res : IntResult) : Word := FlagsCodec.encode ((FlagsCodec.decode w).afterInt res)

/-- A binary32 pattern that is a NaN (42_float.md R220). -/
def isNaN (b : Word) : Bool := b.extractLsb' 23 8 == 0xFF#8 && b.extractLsb' 0 23 != 0#23

/-- A binary32 pattern that is an infinity of either sign (42_float.md R220). -/
def isInf (b : Word) : Bool := b.extractLsb' 0 31 == 0x7F800000#31

/-- A binary32 pattern that is a zero of either sign (42_float.md R220). -/
def isZero (b : Word) : Bool := b.extractLsb' 0 31 == 0#31

/-- The float-result update on the record of fields (40_engine.md R154). -/
def FlagSet.afterFloat (s : FlagSet) (b : Word) : FlagSet := { s with a := isNaN b, f := isInf b }

/-- The float-result update of the flags word. -/
def floatFlags (w b : Word) : Word := FlagsCodec.encode ((FlagsCodec.decode w).afterFloat b)

/-! ## Carry and overflow (41_integer.md R172) -/

/-- Carry out of bit 31 of a sum. -/
def addCarry (a b : Word) : Bool := decide (2 ^ 32 ≤ a.toNat + b.toNat)

/-- Overflow of the sum `r`: the operands' sign bits agree and the result's differs. -/
def addOverflow (a b r : Word) : Bool := a.getLsbD 31 == b.getLsbD 31 && r.getLsbD 31 != a.getLsbD 31

/-- Borrow of a difference: the unsigned first operand is below the second. -/
def subBorrow (a b : Word) : Bool := decide (a.toNat < b.toNat)

/-- Overflow of the difference `r`: the operands' sign bits differ and the result's differs from the first's. -/
def subOverflow (a b r : Word) : Bool := a.getLsbD 31 != b.getLsbD 31 && r.getLsbD 31 != a.getLsbD 31

/-- The unsigned product needs more than 32 bits. -/
def mulCarry (a b : Word) : Bool := decide (2 ^ 32 ≤ a.toNat * b.toNat)

/-- The signed product is outside -2^31 .. 2^31 - 1. -/
def mulOverflow (a b : Word) : Bool := decide (a.toInt * b.toInt < -2 ^ 31 ∨ 2 ^ 31 - 1 < a.toInt * b.toInt)

/-- The last bit a left shift by `s` moves out; 0 for a shift by 0 (41_integer.md R184). -/
def shlCarry (a : Word) (s : Nat) : Bool := if s = 0 then false else a.getLsbD (32 - s)

/-- The last bit a right shift by `s` moves out; 0 for a shift by 0 (41_integer.md R185, R186). -/
def shrCarry (a : Word) (s : Nat) : Bool := if s = 0 then false else a.getLsbD (s - 1)

/-- The division special cases of V for DIVS and REMS (R172). -/
def signedDivSpecial (a b : Word) : Bool := b == 0#32 || (a == 0x80000000#32 && b == 0xFFFFFFFF#32)

end Sys2Proof.Machine
end

