-- ==== Sys2Proof/Machine/Operands.lean ====
section
/-! DEFINITION. Operand forms: the immediates of spec/30_encoding.md R103, the effective address of
spec/45_memory_access.md R330, branch and jump targets, and the nineteen branch conditions (spec/43_control.md R261 to
R280). -/

namespace Sys2Proof.Machine

/-! ## Immediates (30_encoding.md R103) -/

/-- `simm16`: ADDI, CMPI, MOVI and the offset of loads and stores. -/
def simm16 (imm : BitVec 16) : Word := imm.signExtend 32

/-- `uimm16`: ANDI, ORI, XORI. -/
def uimm16 (imm : BitVec 16) : Word := imm.setWidth 32

/-- The immediate of LUI: imm16 shifted left by 16. -/
def upperImm (imm : BitVec 16) : Word := imm.setWidth 32 <<< 16

/-- `shamt`: bits 4:0 of the imm16 field, for SHLI, SHRI, SARI. -/
def shamt (imm : BitVec 16) : Nat := (imm.extractLsb' 0 5).toNat

/-- The amount of a register shift: bits 4:0 of the register (41_integer.md R184 to R186). -/
def shiftAmount (b : Word) : Nat := (b.extractLsb' 0 5).toNat

/-- The target of a format B branch: pc plus four times the signed offset (43_control.md R261). -/
def branchTarget (pc : Word) (imm : BitVec 19) : Word := pc + (imm.signExtend 32 <<< 2)

/-- The target of JMP and CALL: pc plus four times the signed offset (43_control.md R281, R282). -/
def jumpTarget (pc : Word) (imm : BitVec 24) : Word := pc + (imm.signExtend 32 <<< 2)

/-- The effective address of a load or store: base plus signed byte offset (45_memory_access.md R330). -/
def effectiveAddress (base : Word) (imm : BitVec 16) : Word := base + simm16 imm

/-! ## Extensions of loaded values (45_memory_access.md R331 to R335) -/

/-- Zero-extension from 16 bits (LDH). -/
def zext16 (v : Word) : Word := (v.setWidth 16).setWidth 32

/-- Sign-extension from 16 bits (LDHS). -/
def sext16 (v : Word) : Word := (v.setWidth 16).signExtend 32

/-- Zero-extension from 8 bits (LDB). -/
def zext8 (v : Word) : Word := (v.setWidth 8).setWidth 32

/-- Sign-extension from 8 bits (LDBS). -/
def sext8 (v : Word) : Word := (v.setWidth 8).signExtend 32

/-! ## Branch conditions -/

/-- The nineteen conditions, in the order of their codes 0..18 (43_control.md R262 to R280). -/
inductive Cond where
  | al | eq | ne | cs | cc | mi | pl | vs | vc | hi | ls | ge | lt | gt | le | od | ev | nan | inf
  deriving DecidableEq, Repr

/-- When a condition is taken, on the flags at the start of the step (43_control.md R262 to R280). -/
def condHolds (s : FlagSet) : Cond → Bool
  | .al => true
  | .eq => s.z
  | .ne => !s.z
  | .cs => s.c
  | .cc => !s.c
  | .mi => s.n
  | .pl => !s.n
  | .vs => s.v
  | .vc => !s.v
  | .hi => !s.c && !s.z
  | .ls => s.c || s.z
  | .ge => s.n == s.v
  | .lt => s.n != s.v
  | .gt => !s.z && s.n == s.v
  | .le => s.z || s.n != s.v
  | .od => s.p
  | .ev => !s.p
  | .nan => s.a
  | .inf => s.f

end Sys2Proof.Machine
end

