-- ==== Sys2Proof/Machine/Alu.lean ====
section
/-! DEFINITION. What each integer operation computes: result, carry and overflow together (spec/41_integer.md R172,
R174 to R199). -/

namespace Sys2Proof.Machine

/-- `a + b` (R174, R190). -/
def aluAdd (a b : Word) : IntResult := ⟨a + b, addCarry a b, addOverflow a b (a + b)⟩

/-- `a - b` (R175, R187, R197). -/
def aluSub (a b : Word) : IntResult := ⟨a - b, subBorrow a b, subOverflow a b (a - b)⟩

/-- The low word of the product (R176). -/
def aluMul (a b : Word) : IntResult := ⟨BitVec.ofNat 32 (a.toNat * b.toNat), mulCarry a b, mulOverflow a b⟩

/-- Unsigned quotient; all ones for a zero divisor (R177). -/
def aluDivu (a b : Word) : IntResult :=
  if b = 0#32 then ⟨0xFFFFFFFF#32, false, true⟩ else ⟨BitVec.ofNat 32 (a.toNat / b.toNat), false, false⟩

/-- Signed quotient rounded toward zero, with its two special cases (R178). -/
def aluDivs (a b : Word) : IntResult :=
  if b = 0#32 then ⟨0xFFFFFFFF#32, false, true⟩
  else if a = 0x80000000#32 ∧ b = 0xFFFFFFFF#32 then ⟨0x80000000#32, false, true⟩
  else ⟨BitVec.ofInt 32 (a.toInt.tdiv b.toInt), false, false⟩

/-- Unsigned remainder; the dividend for a zero divisor (R179). -/
def aluRemu (a b : Word) : IntResult :=
  if b = 0#32 then ⟨a, false, true⟩ else ⟨BitVec.ofNat 32 (a.toNat % b.toNat), false, false⟩

/-- Signed remainder, whose sign follows the dividend, with its two special cases (R180). -/
def aluRems (a b : Word) : IntResult :=
  if b = 0#32 then ⟨a, false, true⟩
  else if a = 0x80000000#32 ∧ b = 0xFFFFFFFF#32 then ⟨0#32, false, true⟩
  else ⟨BitVec.ofInt 32 (a.toInt - a.toInt.tdiv b.toInt * b.toInt), false, false⟩

/-- A result that clears C and V (R172, last row). -/
def aluPlain (r : Word) : IntResult := ⟨r, false, false⟩

/-- Left shift (R184, R194). -/
def aluShl (a : Word) (s : Nat) : IntResult := ⟨a <<< s, shlCarry a s, false⟩

/-- Logical right shift (R185, R195). -/
def aluShr (a : Word) (s : Nat) : IntResult := ⟨a >>> s, shrCarry a s, false⟩

/-- Arithmetic right shift (R186, R196). -/
def aluSar (a : Word) (s : Nat) : IntResult := ⟨a.sshiftRight s, shrCarry a s, false⟩

end Sys2Proof.Machine
end

