-- ==== Sys2Proof/Machine/State.lean ====
section
/-! DEFINITION. The state of the machine (spec/10_state.md, spec/20_memory.md R60), its reset value
(spec/70_reset_and_hazards.md R420, R421), and the reasons a step could stop for. -/

namespace Sys2Proof.Machine

/-- A maskable interrupt line, 0..7 (00_scope.md R12; 60_exceptions.md R370: a line outside 0..7 cannot be presented). -/
abbrev Line := Fin 8

/-- Physical memory: the bytes that differ from `Config.initByte`, as (address, byte) pairs in strictly rising order of
address (20_memory.md R60; the canonical form is `Memory.wf`). -/
abbrev Memory := List Host.Cell

/-- HALTED (10_state.md R41). -/
inductive RunState where
  /-- Running. -/
  | running
  /-- Halted(HALT, addr): the HALT at `addr` was executed (44_privileged.md R302). -/
  | haltExecuted (addr : Word)
  /-- Halted(InvalidOpcode, addr, word): `word`, fetched at `addr`, does not decode (40_engine.md R144). -/
  | invalidOpcode (addr word : Word)
  deriving DecidableEq, Repr

/-- The state of the core and its memory (10_state.md R20, R38, R41; 20_memory.md R60). -/
structure State where
  /-- x0..x15; x13 is the pc, x14 bp, x15 sp (R20 to R23). -/
  x : Vector Word 16
  /-- f0..f15, raw 32-bit patterns (R24). -/
  f : Vector Word 16
  /-- The flags word (R26). -/
  flags : Word
  /-- The physical address of the first-level page table (R34). -/
  memmap : Word
  /-- PENDING: bit i is set when line i is raised and not yet serviced (R38). -/
  pending : BitVec 8
  /-- HALTED (R41). -/
  halted : RunState
  /-- Physical memory (20_memory.md R60). -/
  mem : Memory
  /-- The MODEL's own field: the optional raise of 40_engine.md R140 for each coming step, first step first; no raise
  when the list is at its end. DESIGN CHOICE (safe): log entry 5. -/
  raises : List (Option Line)
  deriving DecidableEq, Repr

/-- Reasons to stop with a fault. There are none: every exception the spec describes is taken as a trap and every
invalid word halts the core, and both are next states (60_exceptions.md R360; 40_engine.md R140, R164). -/
inductive Fault where
  deriving DecidableEq, Repr

/-- Reasons to refuse an instruction. -/
inductive Refusal where
  /-- Raised by `exec` alone, in the arm of an instruction that has no meaning yet. Safe: nothing can be proved of a
  step that does not happen. No arm raises it: every instruction has its meaning. -/
  | notModelled (mnemonic : String)
  deriving DecidableEq, Repr

/-- What a meaning answers. -/
abbrev Result := Host.Outcome State Fault Refusal

/-- The machine right after reset (10_state.md R44; 70_reset_and_hazards.md R420, R421). The x and f registers but
x13 hold INIT_REGS, which the spec leaves open: log entries 1 and 2. -/
def State.reset : State where
  x := (Vector.replicate 16 Config.initX).set 13 Config.resetPc
  f := Vector.replicate 16 Config.initF
  flags := 0x00000000#32
  memmap := 0x00000000#32
  pending := 0x00#8
  halted := .running
  mem := []
  raises := []

end Sys2Proof.Machine
end

