-- ==== Sys2Proof/Machine/Ops.lean ====
section
/-! DEFINITION. The named operations over memory and registers, Retire's shared forms, taking an exception
(spec/60_exceptions.md R382) and returning from one (spec/44_privileged.md R309). -/

namespace Sys2Proof.Machine

/-! ## Physical memory (20_memory.md R60, R61) -/

/-- The byte at an address; an unlisted address reads as `Config.initByte`. -/
def Memory.read : Memory → Nat → Byte
  | [], _ => Config.initByte
  | (k, b) :: rest, a => if k = a then b else Memory.read rest a

/-- The list without an address. -/
def Memory.erase : Memory → Nat → Memory
  | [], _ => []
  | (k, b) :: rest, a => if k = a then Memory.erase rest a else (k, b) :: Memory.erase rest a

/-- The list with a cell put before the first larger address. -/
def Memory.insert : Memory → Nat → Byte → Memory
  | [], a, v => [(a, v)]
  | (k, b) :: rest, a, v => if a < k then (a, v) :: (k, b) :: rest else (k, b) :: Memory.insert rest a v

/-- A write of one byte: the canonical form is kept, so writing `Config.initByte` removes the entry. -/
def Memory.write (m : Memory) (a : Nat) (v : Byte) : Memory :=
  if v = Config.initByte then Memory.erase m a else Memory.insert (Memory.erase m a) a v

/-- Strictly rising addresses, each at least `low`, inside the 2^32 addresses of R60, and no entry an unlisted address
would read as. -/
def Memory.wfFrom : Nat → Memory → Bool
  | _, [] => true
  | low, (k, b) :: rest => decide (low ≤ k) && decide (k < 2 ^ 32) && b != Config.initByte && Memory.wfFrom (k + 1) rest

/-- The canonical form of memory. -/
def Memory.wf (m : Memory) : Bool := Memory.wfFrom 0 m

/-- The bytes at a list of addresses, in the list's order. -/
def Memory.readAll (m : Memory) (pas : List Word) : List Byte := pas.map fun pa => m.read pa.toNat

/-- Writes of one byte each, first to last (20_memory.md R69). -/
def Memory.writeAll : Memory → List (Word × Byte) → Memory
  | m, [] => m
  | m, (pa, v) :: rest => Memory.writeAll (m.write pa.toNat v) rest

/-- The `n` addresses from `a` on, wrapping modulo 2^32 (20_memory.md R65). -/
def addrsFrom : Word → Nat → List Word
  | _, 0 => []
  | a, n + 1 => a :: addrsFrom (a + 1#32) n

/-- `readBytes(physAddr, len)` of the backing store (20_memory.md R61). -/
def State.readBytes (s : State) (pa : Word) (len : Nat) : List Byte := s.mem.readAll (addrsFrom pa len)

/-- Memory with the bytes `data` at `pa` and up (20_memory.md R61). -/
def State.writeBytes (s : State) (pa : Word) (data : List Byte) : State :=
  { s with mem := s.mem.writeAll ((addrsFrom pa data.length).zip data) }

/-- `PhysRead(pa, n)`: little-endian, no translation (20_memory.md R61, R64). -/
def State.physRead (s : State) (pa : Word) (n : Nat) : Word := leWord (s.readBytes pa n)

/-- `PhysWrite(pa, n, v)`: the `n` low bytes of `v`, least significant first (20_memory.md R61). -/
def State.physWrite (s : State) (pa : Word) (n : Nat) (v : Word) : State := s.writeBytes pa (leBytes n v)

/-! ## Registers (10_state.md R20 to R25) -/

/-- `x[i]`. During an instruction x13 still holds the instruction's own address, which is what a source operand naming
x13 reads (40_engine.md R150). -/
def State.getX (s : State) (i : XReg) : Word := s.x[i]

/-- `x[i] <- v`. -/
def State.setX (s : State) (i : XReg) (v : Word) : State := { s with x := s.x.set i v }

/-- `f[i]`, raw bits. -/
def State.getF (s : State) (i : FReg) : Word := s.f[i]

/-- `f[i] <- v`, raw bits. -/
def State.setF (s : State) (i : FReg) (v : Word) : State := { s with f := s.f.set i v }

/-- The flags register, exactly as stored by the port (10_state.md R25). -/
def State.setFlags (s : State) (w : Word) : State := { s with flags := w }

/-- memmap. -/
def State.setMemmap (s : State) (w : Word) : State := { s with memmap := w }

/-- PENDING. -/
def State.setPending (s : State) (p : BitVec 8) : State := { s with pending := p }

/-- HALTED. -/
def State.setHalted (s : State) (h : RunState) : State := { s with halted := h }

/-- Physical memory. -/
def State.setMem (s : State) (m : Memory) : State := { s with mem := m }

/-- The raises still to come. -/
def State.setRaises (s : State) (l : List (Option Line)) : State := { s with raises := l }

/-- The program counter, x13 (10_state.md R22). -/
def State.pc (s : State) : Word := s.getX 13

/-- The stack pointer, x15 (10_state.md R23). -/
def State.sp (s : State) : Word := s.getX 15

/-- `x[13] <- next_pc` (40_engine.md R148). -/
def State.setPc (s : State) (v : Word) : State := s.setX 13 v

/-- The fields of the flags register (10_state.md R35). -/
def State.flagSet (s : State) : FlagSet := FlagsCodec.decode s.flags

/-- An architectural write of all fields: through the codec, so that the reserved bits are zero (10_state.md R27). -/
def State.setFlagSet (s : State) (fs : FlagSet) : State := s.setFlags (FlagsCodec.encode fs)

/-! ## Retire (40_engine.md R148, R149, R151 to R156) -/

/-- The next pc is pc + 4 unless the instruction sets it (R149). A later write of x13 wins (R151). -/
def State.advance (s : State) : State := s.setPc (s.pc + 4#32)

/-- Retire of an instruction that writes one x register and no flag. -/
def State.retireX (s : State) (xd : XReg) (v : Word) : State := s.advance.setX xd v

/-- Retire of an integer-result instruction that writes no register: CMP, CMPI (R153). -/
def State.retireCompare (s : State) (res : IntResult) : State := s.advance.setFlags (intFlags s.flags res)

/-- Retire of an integer-result instruction (R153): the destination, then the flags. -/
def State.retireInt (s : State) (xd : XReg) (res : IntResult) : State :=
  (s.retireX xd res.r).setFlags (intFlags s.flags res)

/-- Retire of a float-result instruction (R154): the destination, then the flags. -/
def State.retireFloat (s : State) (fd : FReg) (b : Word) : State :=
  (s.advance.setF fd b).setFlags (floatFlags s.flags b)

/-! ## Taking an exception (60_exceptions.md R361, R366, R380 to R383) -/

/-- What a trap is taken for (R361). -/
inductive Cause where
  /-- A maskable interrupt line. -/
  | line (l : Line)
  /-- An unmapped address (R362). -/
  | pageFault
  /-- A permission bit is clear (R363). -/
  | protectionFault
  /-- A privileged instruction in the User ring (R364). -/
  | privilegeFault
  deriving DecidableEq, Repr

/-- The cause code (R361). -/
def causeCode : Cause → Word
  | .line l => BitVec.ofNat 32 l.val
  | .pageFault => 8#32
  | .protectionFault => 9#32
  | .privilegeFault => 10#32

/-- The flags after entry: MASK, R and M cleared, and LLL the line for a line (R382, R383). -/
def entryFlags (c : Cause) (fs : FlagSet) : FlagSet :=
  match c with
  | .line l => { fs with mask := 0#8, r := false, m := false, lll := BitVec.ofNat 3 l.val }
  | .pageFault | .protectionFault | .privilegeFault => { fs with mask := 0#8, r := false, m := false }

/-- PENDING after entry: the line serviced is cleared (R382, R383). -/
def entryPending (c : Cause) (p : BitVec 8) : BitVec 8 :=
  match c with
  | .line l => p &&& ~~~(1#8 <<< l.val)
  | .pageFault | .protectionFault | .privilegeFault => p

/-- The four words of the save area, written in order (R381, R382). -/
def State.writeSaveArea (s : State) (c : Cause) (retpc info kind : Word) : State :=
  (((s.physWrite Config.saveBase 4 retpc).physWrite (Config.saveBase + 4#32) 4 s.flags).physWrite
    (Config.saveBase + 8#32) 4 (causeCode c ||| (kind <<< 8))).physWrite (Config.saveBase + 12#32) 4 info

/-- The physical address of a cause's word of the vector table (R380). -/
def vectorAddress (c : Cause) : Word := Config.vectorBase + (causeCode c <<< 2)

/-- TrapEntry(cause, retpc, info, kind) (R382): the save area, then flags and PENDING, then the vector read. -/
def State.trapEntry (s : State) (c : Cause) (retpc info kind : Word) : State :=
  let saved := s.writeSaveArea c retpc info kind
  let entered := (saved.setFlagSet (entryFlags c s.flagSet)).setPending (entryPending c s.pending)
  entered.setPc (entered.physRead (vectorAddress c) 4)

/-- The return from a trap (44_privileged.md R309): pc and flags from the save area, read physically. -/
def State.trapReturn (s : State) : State :=
  (s.setFlags (codecFlags (s.physRead (Config.saveBase + 4#32) 4))).setPc (s.physRead Config.saveBase 4)

/-! ## The ring -/

/-- True in the User ring (10_state.md R32). -/
def State.userRing (s : State) : Bool := s.flagSet.r

end Sys2Proof.Machine
end

