-- ==== Sys2Proof/Machine/Mmu.lean ====
section
/-! DEFINITION. Address translation (spec/20_memory.md R70 to R86) and the virtual accesses built on it (R69): fetch,
loads, stores and stack accesses, with the trap a failing one takes (spec/60_exceptions.md R362, R363, R366), and the
privilege check, whose trap records the fetched word (spec/40_engine.md R145). -/

namespace Sys2Proof.Machine

open Sys2Proof.Config

/-- The access kind the MMU is asked with (20_memory.md R70). -/
inductive AccessKind where
  | read | write | execute
  deriving DecidableEq, Repr

/-- What a translation can fail with (20_memory.md R70). -/
inductive MmuFault where
  /-- A zero first-level entry or Used = 0 (R77, R80). -/
  | page
  /-- The permission bit of the access kind is 0 (R81). -/
  | protection
  deriving DecidableEq, Repr

/-- A failed access: the fault, the virtual address of the byte that failed, and the kind (60_exceptions.md R362, R366). -/
structure AccessFault where
  /-- The MMU's fault. -/
  fault : MmuFault
  /-- The virtual address of the first failing byte. -/
  va : Word
  /-- The kind of the access. -/
  kind : AccessKind
  deriving DecidableEq, Repr

/-- The permission bit an access kind needs (20_memory.md R73). -/
def permissionBit : AccessKind → PteBit
  | .read => .readable
  | .write => .writable
  | .execute => .executable

/-- One bit of a second-level entry (20_memory.md R79). -/
def pteBit (e : Word) (b : PteBit) : Bool := e.getLsbD (pteLayout b)

/-- The physical address of a valid second-level entry's page at an offset: BASE + va[15:0] (20_memory.md R83). -/
def composeAddress (e2 va : Word) : Word := (e2.extractLsb' 0 28).setWidth 32 + (va.extractLsb' 0 16).setWidth 32

/-- The first-level entry of a virtual address (20_memory.md R73, R76). -/
def State.firstLevelEntry (s : State) (va : Word) : Word :=
  s.physRead (s.memmap + ((va.extractLsb' 24 8).setWidth 32 <<< 2)) 4

/-- The second-level entry of a virtual address in the table at `e1` (20_memory.md R73, R78). -/
def State.secondLevelEntry (s : State) (e1 va : Word) : Word :=
  s.physRead (e1 + ((va.extractLsb' 16 8).setWidth 32 <<< 2)) 4

/-- The two-level walk (20_memory.md R73, M = 1). -/
def State.walk (s : State) (va : Word) (k : AccessKind) : Except MmuFault Word :=
  let e1 := s.firstLevelEntry va
  if e1 = 0#32 then .error .page
  else
    let e2 := s.secondLevelEntry e1 va
    if pteBit e2 .used = false then .error .page
    else if pteBit e2 (permissionBit k) = false then .error .protection
    else .ok (composeAddress e2 va)

/-- Translate(va, kind) of one byte address (20_memory.md R73); identity when M = 0 (R74). -/
def State.translate (s : State) (va : Word) (k : AccessKind) : Except MmuFault Word :=
  if s.flagSet.m then s.walk va k else .ok va

/-- The translations of `n` bytes from `va` on, in ascending order, stopping at the first failure (20_memory.md R69). -/
def State.translateBytes (s : State) (k : AccessKind) : Word → Nat → Except AccessFault (List Word)
  | _, 0 => .ok []
  | va, n + 1 =>
    match s.translate va k with
    | .error e => .error ⟨e, va, k⟩
    | .ok pa =>
      match s.translateBytes k (va + 1#32) n with
      | .error f => .error f
      | .ok pas => .ok (pa :: pas)

/-- A read of `n` bytes with a kind: all translations, then the bytes (20_memory.md R69). -/
def State.readVirtual (s : State) (k : AccessKind) (va : Word) (n : Nat) : Except AccessFault Word :=
  match s.translateBytes k va n with
  | .error f => .error f
  | .ok pas => .ok (leWord (s.mem.readAll pas))

/-- `MemRead(va, n)` (00_scope.md R10). -/
def State.memRead (s : State) (va : Word) (n : Nat) : Except AccessFault Word := s.readVirtual .read va n

/-- `FetchRead(va)` (00_scope.md R10; 20_memory.md R67). -/
def State.fetchRead (s : State) (va : Word) : Except AccessFault Word := s.readVirtual .execute va 4

/-- `MemWrite(va, n, v)`: all translations, then the bytes in ascending order (20_memory.md R69). -/
def State.memWrite (s : State) (va : Word) (n : Nat) (v : Word) : Except AccessFault State :=
  match s.translateBytes .write va n with
  | .error f => .error f
  | .ok pas => .ok (s.setMem (s.mem.writeAll (pas.zip (leBytes n v))))

/-- The cause of an MMU fault (60_exceptions.md R361). -/
def mmuCause : MmuFault → Cause
  | .page => .pageFault
  | .protection => .protectionFault

/-- The kind recorded in bits 15:8 of the cause word (60_exceptions.md R366). -/
def kindCode : AccessKind → Word
  | .read => 0#32
  | .write => 1#32
  | .execute => 2#32

/-- The trap of a failed access: nothing of the instruction is committed, and the return address is its own
(40_engine.md R147, R157; 60_exceptions.md R366). -/
def State.accessFault (s : State) (f : AccessFault) : State := s.trapEntry (mmuCause f.fault) s.pc f.va (kindCode f.kind)

/-- An instruction that reads `n` bytes at `va` and goes on with the value, or takes the fault. -/
def loadThen (s : State) (va : Word) (n : Nat) (effect : Word → State) : Result :=
  match s.memRead va n with
  | .error f => .next (s.accessFault f)
  | .ok v => .next (effect v)

/-- An instruction that writes `n` bytes at `va` and goes on from the written state, or takes the fault. -/
def storeThen (s : State) (va : Word) (n : Nat) (v : Word) (effect : State → State) : Result :=
  match s.memWrite va n v with
  | .error f => .next (s.accessFault f)
  | .ok s' => .next (effect s')

/-- A push of one word below x15, then the jump to `next` (45_memory_access.md R341; 43_control.md R282, R284): memory,
then x15, then the pc (40_engine.md R148). -/
def pushThenJump (s : State) (v next : Word) : Result :=
  storeThen s (s.sp - 4#32) 4 v fun s' => (s'.setX 15 (s.sp - 4#32)).setPc next

/-! ## The privilege check (40_engine.md R145) -/

/-- PrivilegeFault: info is the instruction's word `w`, the return address its own (60_exceptions.md R364, R366). The
word is read at x13 as the fetch read it: nothing is committed between the two, so inside a step it is the word the
decoder was given, whichever decoder that is (30_encoding.md R117; log entry 9). Where the fetch at x13 fails no step
reaches Execute, and the fault of the fetch stands (R143). -/
def State.privilegeFault (s : State) : State :=
  match s.fetchRead s.pc with
  | .ok w => s.trapEntry .privilegeFault s.pc w 0#32
  | .error f => s.accessFault f

/-- A privileged instruction's effect in the System ring; in the User ring, PrivilegeFault in its place (R145). -/
def systemOnly (s : State) (effect : State) : Result :=
  if s.userRing then .next s.privilegeFault else .next effect

end Sys2Proof.Machine
end

