-- ==== Sys2Proof/Machine/Control.lean ====
section
/-! DEFINITION. The meanings of the control-transfer instructions (spec/43_control.md). None changes a flag (spec/43_control.md
R260). -/

namespace Sys2Proof.Machine

/-! ## Conditional branches -/

/-- B<cond>: to the target when the condition holds on the flags at the start of the step, else to pc + 4
(43_control.md R261). -/
def branchIf (c : Cond) (imm : BitVec 19) (s : State) : Result :=
  .next (s.setPc (if condHolds s.flagSet c then branchTarget s.pc imm else s.pc + 4#32))

/-- BAL: branch if always (43_control.md R262). -/
def execBal (imm : BitVec 19) (s : State) : Result := branchIf .al imm s

/-- BEQ: branch if equal or zero (43_control.md R263). -/
def execBeq (imm : BitVec 19) (s : State) : Result := branchIf .eq imm s

/-- BNE: branch if not equal or nonzero (43_control.md R264). -/
def execBne (imm : BitVec 19) (s : State) : Result := branchIf .ne imm s

/-- BCS: branch if carry or borrow set (43_control.md R265). -/
def execBcs (imm : BitVec 19) (s : State) : Result := branchIf .cs imm s

/-- BCC: branch if carry or borrow clear (43_control.md R266). -/
def execBcc (imm : BitVec 19) (s : State) : Result := branchIf .cc imm s

/-- BMI: branch if minus (43_control.md R267). -/
def execBmi (imm : BitVec 19) (s : State) : Result := branchIf .mi imm s

/-- BPL: branch if plus (43_control.md R268). -/
def execBpl (imm : BitVec 19) (s : State) : Result := branchIf .pl imm s

/-- BVS: branch if overflow set (43_control.md R269). -/
def execBvs (imm : BitVec 19) (s : State) : Result := branchIf .vs imm s

/-- BVC: branch if overflow clear (43_control.md R270). -/
def execBvc (imm : BitVec 19) (s : State) : Result := branchIf .vc imm s

/-- BHI: branch if unsigned higher (43_control.md R271). -/
def execBhi (imm : BitVec 19) (s : State) : Result := branchIf .hi imm s

/-- BLS: branch if unsigned lower or same (43_control.md R272). -/
def execBls (imm : BitVec 19) (s : State) : Result := branchIf .ls imm s

/-- BGE: branch if signed greater or equal (43_control.md R273). -/
def execBge (imm : BitVec 19) (s : State) : Result := branchIf .ge imm s

/-- BLT: branch if signed less than (43_control.md R274). -/
def execBlt (imm : BitVec 19) (s : State) : Result := branchIf .lt imm s

/-- BGT: branch if signed greater than (43_control.md R275). -/
def execBgt (imm : BitVec 19) (s : State) : Result := branchIf .gt imm s

/-- BLE: branch if signed less or equal (43_control.md R276). -/
def execBle (imm : BitVec 19) (s : State) : Result := branchIf .le imm s

/-- BOD: branch if odd (43_control.md R277). -/
def execBod (imm : BitVec 19) (s : State) : Result := branchIf .od imm s

/-- BEV: branch if even (43_control.md R278). -/
def execBev (imm : BitVec 19) (s : State) : Result := branchIf .ev imm s

/-- BNAN: branch if NaN (43_control.md R279). -/
def execBnan (imm : BitVec 19) (s : State) : Result := branchIf .nan imm s

/-- BINF: branch if infinite (43_control.md R280). -/
def execBinf (imm : BitVec 19) (s : State) : Result := branchIf .inf imm s

/-! ## Jumps, calls and return -/

/-- JMP: jump, pc-relative (43_control.md R281). -/
def execJmp (imm : BitVec 24) (s : State) : Result := .next (s.setPc (jumpTarget s.pc imm))

/-- CALL: call, pc-relative: pc + 4 is pushed (43_control.md R282). -/
def execCall (imm : BitVec 24) (s : State) : Result := pushThenJump s (s.pc + 4#32) (jumpTarget s.pc imm)

/-- JMPR: jump to a register (43_control.md R283). -/
def execJmpr (xs : XReg) (s : State) : Result := .next (s.setPc (s.getX xs))

/-- CALLR: call through a register, read before x15 changes (43_control.md R284). -/
def execCallr (xs : XReg) (s : State) : Result := pushThenJump s (s.pc + 4#32) (s.getX xs)

/-- RET: return to the popped address (43_control.md R285). -/
def execRet (s : State) : Result := loadThen s s.sp 4 fun ra => (s.setX 15 (s.sp + 4#32)).setPc ra

end Sys2Proof.Machine
end

