-- ==== Sys2Proof/Machine/Float.lean ====
section
/-! DEFINITION. IEEE-754 binary32 arithmetic on bit patterns (spec/42_float.md). A magnitude is held exactly, as a
natural number of units of 2^-149 (the least subnormal), or as a fraction of two naturals in that unit; the one rounding
of an operation is `roundMagnitude`, round to nearest, ties to even. -/

namespace Sys2Proof.Machine

open Sys2Proof.Config

/-! ## Reading a pattern (R220) -/

/-- The sign bit. -/
def signOf (b : Word) : Bool := b.getLsbD 31

/-- The biased exponent, bits 30:23. -/
def exponentOf (b : Word) : Nat := (b.extractLsb' 23 8).toNat

/-- The fraction, bits 22:0. -/
def fractionOf (b : Word) : Nat := (b.extractLsb' 0 23).toNat

/-- The magnitude of a pattern in units of 2^-149: the fraction when the exponent field is zero, else 2^23 plus the
fraction, scaled. An infinity reads as 2^277 units, which is above every finite value. -/
def magnitude (b : Word) : Nat :=
  if exponentOf b = 0 then fractionOf b else (2 ^ 23 + fractionOf b) * 2 ^ (exponentOf b - 1)

/-- The signed value of a pattern that is not a NaN, in units of 2^-149. -/
def signedValue (b : Word) : Int := if signOf b then -(magnitude b : Int) else (magnitude b : Int)

/-! ## Rounding (R221, R223) -/

/-- `p / q` rounded to the nearest natural, ties to even. -/
def roundQuotient (p q : Nat) : Nat :=
  if 2 * (p % q) < q then p / q
  else if q < 2 * (p % q) then p / q + 1
  else if (p / q) % 2 = 0 then p / q
  else p / q + 1

/-- How many low bits of the integer part `n` of a magnitude fall below a 24-bit significand. -/
def excessBits (n : Nat) : Nat := Nat.log2 n - 23

/-- The exponent and fraction bits of the binary32 value nearest to `p / q` units of 2^-149, ties to even: subnormals
are kept, and what is too large becomes the infinity 0x7F800000 (R221, R223). -/
def roundMagnitude (p q : Nat) : Nat :=
  min (excessBits (p / q) * 2 ^ 23 + roundQuotient p (q * 2 ^ excessBits (p / q))) 0x7F800000

/-- A pattern from its sign and its lower 31 bits. -/
def withSign (sign : Bool) (low : Nat) : Word := BitVec.ofNat 32 ((if sign then 2 ^ 31 else 0) + low)

/-- `p / q` units of 2^-149 with a sign, rounded. -/
def roundPattern (sign : Bool) (p q : Nat) : Word := withSign sign (roundMagnitude p q)

/-- The infinity of a sign (R220). -/
def infinity (sign : Bool) : Word := withSign sign 0x7F800000

/-! ## Arithmetic (R222, R223, R226 to R229) -/

/-- The exact sum `n` of two finite operands whose sign bits are `sa` and `sb`, rounded; a zero sum is -0 only when both
operands are negative (R223). -/
def roundSum (sa sb : Bool) (n : Int) : Word :=
  if n = 0 then withSign (sa && sb) 0 else roundPattern (decide (n < 0)) n.natAbs 1

/-- The sum of two patterns (R226). -/
def floatAdd (a b : Word) : Word :=
  if isNaN a || isNaN b then canonicalNaN
  else if isInf a then (if isInf b && signOf a != signOf b then canonicalNaN else a)
  else if isInf b then b
  else roundSum (signOf a) (signOf b) (signedValue a + signedValue b)

/-- A pattern with its sign bit flipped. -/
def floatNeg (b : Word) : Word := b ^^^ 0x80000000#32

/-- The difference of two patterns: the sum with the second operand's sign flipped (R227). -/
def floatSub (a b : Word) : Word := floatAdd a (floatNeg b)

/-- The product of two patterns (R228). -/
def floatMul (a b : Word) : Word :=
  let sign := signOf a != signOf b
  if isNaN a || isNaN b then canonicalNaN
  else if isInf a || isInf b then (if isZero a || isZero b then canonicalNaN else infinity sign)
  else roundPattern sign (magnitude a * magnitude b) (2 ^ 149)

/-- The quotient of two patterns (R229). -/
def floatDiv (a b : Word) : Word :=
  let sign := signOf a != signOf b
  if isNaN a || isNaN b then canonicalNaN
  else if isInf a then (if isInf b then canonicalNaN else infinity sign)
  else if isInf b then withSign sign 0
  else if isZero b then (if isZero a then canonicalNaN else infinity sign)
  else roundPattern sign (magnitude a * 2 ^ 149) (magnitude b)

/-! ## Conversions (R231, R232) -/

/-- A signed integer to the nearest binary32 value (R231). -/
def intToFloat (a : Word) : Word := roundPattern (a.getLsbD 31) (a.toInt.natAbs * 2 ^ 149) 1

/-- A binary32 value to a signed integer, truncated toward zero and saturated, with its V (R232). -/
def floatToInt (b : Word) : IntResult :=
  if isNaN b then ⟨0#32, false, true⟩
  else if (2 : Int) ^ 31 * 2 ^ 149 ≤ signedValue b then ⟨0x7FFFFFFF#32, false, true⟩
  else if signedValue b < -(2 : Int) ^ 31 * 2 ^ 149 then ⟨0x80000000#32, false, true⟩
  else ⟨BitVec.ofInt 32 ((signedValue b).tdiv (2 ^ 149)), false, false⟩

/-! ## Comparison (R225, R235 to R237) -/

/-- Neither operand is a NaN. -/
def ordered (a b : Word) : Bool := !isNaN a && !isNaN b

/-- Equal as real numbers; -0 equals +0 and a NaN equals nothing. -/
def floatEq (a b : Word) : Bool := ordered a b && decide (signedValue a = signedValue b)

/-- Less than as real numbers. -/
def floatLt (a b : Word) : Bool := ordered a b && decide (signedValue a < signedValue b)

/-- Less than or equal as real numbers. -/
def floatLe (a b : Word) : Bool := ordered a b && decide (signedValue a ≤ signedValue b)

/-- A truth value in an x register: 1 or 0 (R225). -/
def truthWord (b : Bool) : Word := if b then 1#32 else 0#32

end Sys2Proof.Machine
end

