-- ==== Sys2Proof/Machine/FloatOps.lean ====
section
/-! DEFINITION. The meanings of the floating-point instructions (spec/42_float.md). Those that write an f register are in the
Float category, those that write an x register in the Int category (spec/42_float.md R224). -/

namespace Sys2Proof.Machine

/-! ## Arithmetic -/

/-- FADD: float add (42_float.md R226). -/
def execFadd (fd fs1 fs2 : FReg) (s : State) : Result := .next (s.retireFloat fd (floatAdd (s.getF fs1) (s.getF fs2)))

/-- FSUB: float subtract (42_float.md R227). -/
def execFsub (fd fs1 fs2 : FReg) (s : State) : Result := .next (s.retireFloat fd (floatSub (s.getF fs1) (s.getF fs2)))

/-- FMUL: float multiply (42_float.md R228). -/
def execFmul (fd fs1 fs2 : FReg) (s : State) : Result := .next (s.retireFloat fd (floatMul (s.getF fs1) (s.getF fs2)))

/-- FDIV: float divide (42_float.md R229). -/
def execFdiv (fd fs1 fs2 : FReg) (s : State) : Result := .next (s.retireFloat fd (floatDiv (s.getF fs1) (s.getF fs2)))

/-! ## Moves and conversions -/

/-- FMOV: float register copy, bits unchanged (42_float.md R230). -/
def execFmov (fd fs : FReg) (s : State) : Result := .next (s.retireFloat fd (s.getF fs))

/-- ITOF: signed integer to float (42_float.md R231). -/
def execItof (fd : FReg) (xs : XReg) (s : State) : Result := .next (s.retireFloat fd (intToFloat (s.getX xs)))

/-- FTOI: float to signed integer, truncated and saturated (42_float.md R232). -/
def execFtoi (xd : XReg) (fs : FReg) (s : State) : Result := .next (s.retireInt xd (floatToInt (s.getF fs)))

/-- MOVXF: raw bits from an x register (42_float.md R233). -/
def execMovxf (fd : FReg) (xs : XReg) (s : State) : Result := .next (s.retireFloat fd (s.getX xs))

/-- MOVFX: raw bits to an x register (42_float.md R234). -/
def execMovfx (xd : XReg) (fs : FReg) (s : State) : Result := .next (s.retireInt xd (aluPlain (s.getF fs)))

/-! ## Comparisons -/

/-- FEQ: float equal (42_float.md R235). -/
def execFeq (xd : XReg) (fs1 fs2 : FReg) (s : State) : Result :=
  .next (s.retireInt xd (aluPlain (truthWord (floatEq (s.getF fs1) (s.getF fs2)))))

/-- FLT: float less than (42_float.md R236). -/
def execFlt (xd : XReg) (fs1 fs2 : FReg) (s : State) : Result :=
  .next (s.retireInt xd (aluPlain (truthWord (floatLt (s.getF fs1) (s.getF fs2)))))

/-- FLE: float less than or equal (42_float.md R237). -/
def execFle (xd : XReg) (fs1 fs2 : FReg) (s : State) : Result :=
  .next (s.retireInt xd (aluPlain (truthWord (floatLe (s.getF fs1) (s.getF fs2)))))

end Sys2Proof.Machine
end

