-- ==== Sys2Proof/Machine/Integer.lean ====
section
/-! DEFINITION. The meanings of the integer instructions (spec/41_integer.md). Sources are read from the state before the
instruction, so a destination that is also a source sees the old value (spec/40_engine.md R160). -/

namespace Sys2Proof.Machine

/-! ## Register-register (format R) -/

/-- ADD: add (41_integer.md R174). -/
def execAdd (xd xs1 xs2 : XReg) (s : State) : Result := .next (s.retireInt xd (aluAdd (s.getX xs1) (s.getX xs2)))

/-- SUB: subtract (41_integer.md R175). -/
def execSub (xd xs1 xs2 : XReg) (s : State) : Result := .next (s.retireInt xd (aluSub (s.getX xs1) (s.getX xs2)))

/-- MUL: multiply, low word (41_integer.md R176). -/
def execMul (xd xs1 xs2 : XReg) (s : State) : Result := .next (s.retireInt xd (aluMul (s.getX xs1) (s.getX xs2)))

/-- DIVU: unsigned divide (41_integer.md R177). -/
def execDivu (xd xs1 xs2 : XReg) (s : State) : Result := .next (s.retireInt xd (aluDivu (s.getX xs1) (s.getX xs2)))

/-- DIVS: signed divide (41_integer.md R178). -/
def execDivs (xd xs1 xs2 : XReg) (s : State) : Result := .next (s.retireInt xd (aluDivs (s.getX xs1) (s.getX xs2)))

/-- REMU: unsigned remainder (41_integer.md R179). -/
def execRemu (xd xs1 xs2 : XReg) (s : State) : Result := .next (s.retireInt xd (aluRemu (s.getX xs1) (s.getX xs2)))

/-- REMS: signed remainder (41_integer.md R180). -/
def execRems (xd xs1 xs2 : XReg) (s : State) : Result := .next (s.retireInt xd (aluRems (s.getX xs1) (s.getX xs2)))

/-- AND: bitwise and (41_integer.md R181). -/
def execAnd (xd xs1 xs2 : XReg) (s : State) : Result := .next (s.retireInt xd (aluPlain (s.getX xs1 &&& s.getX xs2)))

/-- OR: bitwise or (41_integer.md R182). -/
def execOr (xd xs1 xs2 : XReg) (s : State) : Result := .next (s.retireInt xd (aluPlain (s.getX xs1 ||| s.getX xs2)))

/-- XOR: bitwise exclusive or (41_integer.md R183). -/
def execXor (xd xs1 xs2 : XReg) (s : State) : Result := .next (s.retireInt xd (aluPlain (s.getX xs1 ^^^ s.getX xs2)))

/-- SHL: shift left (41_integer.md R184). -/
def execShl (xd xs1 xs2 : XReg) (s : State) : Result :=
  .next (s.retireInt xd (aluShl (s.getX xs1) (shiftAmount (s.getX xs2))))

/-- SHR: shift right logical (41_integer.md R185). -/
def execShr (xd xs1 xs2 : XReg) (s : State) : Result :=
  .next (s.retireInt xd (aluShr (s.getX xs1) (shiftAmount (s.getX xs2))))

/-- SAR: shift right arithmetic (41_integer.md R186). -/
def execSar (xd xs1 xs2 : XReg) (s : State) : Result :=
  .next (s.retireInt xd (aluSar (s.getX xs1) (shiftAmount (s.getX xs2))))

/-- CMP: subtract, flags only (41_integer.md R187). -/
def execCmp (xs1 xs2 : XReg) (s : State) : Result := .next (s.retireCompare (aluSub (s.getX xs1) (s.getX xs2)))

/-- MOV: register copy (41_integer.md R188). -/
def execMov (xd xs : XReg) (s : State) : Result := .next (s.retireInt xd (aluPlain (s.getX xs)))

/-- NOT: bitwise complement (41_integer.md R189). -/
def execNot (xd xs : XReg) (s : State) : Result := .next (s.retireInt xd (aluPlain (~~~s.getX xs)))

/-! ## Register-immediate (format I) -/

/-- ADDI: add sign-extended immediate (41_integer.md R190). -/
def execAddi (xd xs : XReg) (imm : BitVec 16) (s : State) : Result :=
  .next (s.retireInt xd (aluAdd (s.getX xs) (simm16 imm)))

/-- ANDI: and with zero-extended immediate (41_integer.md R191). -/
def execAndi (xd xs : XReg) (imm : BitVec 16) (s : State) : Result :=
  .next (s.retireInt xd (aluPlain (s.getX xs &&& uimm16 imm)))

/-- ORI: or with zero-extended immediate (41_integer.md R192). -/
def execOri (xd xs : XReg) (imm : BitVec 16) (s : State) : Result :=
  .next (s.retireInt xd (aluPlain (s.getX xs ||| uimm16 imm)))

/-- XORI: exclusive or with zero-extended immediate (41_integer.md R193). -/
def execXori (xd xs : XReg) (imm : BitVec 16) (s : State) : Result :=
  .next (s.retireInt xd (aluPlain (s.getX xs ^^^ uimm16 imm)))

/-- SHLI: shift left by immediate (41_integer.md R194). -/
def execShli (xd xs : XReg) (imm : BitVec 16) (s : State) : Result :=
  .next (s.retireInt xd (aluShl (s.getX xs) (shamt imm)))

/-- SHRI: shift right logical by immediate (41_integer.md R195). -/
def execShri (xd xs : XReg) (imm : BitVec 16) (s : State) : Result :=
  .next (s.retireInt xd (aluShr (s.getX xs) (shamt imm)))

/-- SARI: shift right arithmetic by immediate (41_integer.md R196). -/
def execSari (xd xs : XReg) (imm : BitVec 16) (s : State) : Result :=
  .next (s.retireInt xd (aluSar (s.getX xs) (shamt imm)))

/-- CMPI: compare with sign-extended immediate (41_integer.md R197). -/
def execCmpi (xs : XReg) (imm : BitVec 16) (s : State) : Result :=
  .next (s.retireCompare (aluSub (s.getX xs) (simm16 imm)))

/-- LUI: load upper immediate (41_integer.md R198). -/
def execLui (xd : XReg) (imm : BitVec 16) (s : State) : Result := .next (s.retireInt xd (aluPlain (upperImm imm)))

/-- MOVI: move sign-extended immediate (41_integer.md R199). -/
def execMovi (xd : XReg) (imm : BitVec 16) (s : State) : Result := .next (s.retireInt xd (aluPlain (simm16 imm)))

end Sys2Proof.Machine
end

