-- ==== Sys2Proof/Machine/MemoryAccess.lean ====
section
/-! DEFINITION. The meanings of the load, store and stack instructions (spec/45_memory_access.md). None changes a flag and none
is privileged. -/

namespace Sys2Proof.Machine

/-! ## Loads -/

/-- LDW: load word (45_memory_access.md R331). -/
def execLdw (xt xs : XReg) (imm : BitVec 16) (s : State) : Result :=
  loadThen s (effectiveAddress (s.getX xs) imm) 4 fun v => s.retireX xt v

/-- LDH: load halfword, zero-extended (45_memory_access.md R332). -/
def execLdh (xt xs : XReg) (imm : BitVec 16) (s : State) : Result :=
  loadThen s (effectiveAddress (s.getX xs) imm) 2 fun v => s.retireX xt (zext16 v)

/-- LDHS: load halfword, sign-extended (45_memory_access.md R333). -/
def execLdhs (xt xs : XReg) (imm : BitVec 16) (s : State) : Result :=
  loadThen s (effectiveAddress (s.getX xs) imm) 2 fun v => s.retireX xt (sext16 v)

/-- LDB: load byte, zero-extended (45_memory_access.md R334). -/
def execLdb (xt xs : XReg) (imm : BitVec 16) (s : State) : Result :=
  loadThen s (effectiveAddress (s.getX xs) imm) 1 fun v => s.retireX xt (zext8 v)

/-- LDBS: load byte, sign-extended (45_memory_access.md R335). -/
def execLdbs (xt xs : XReg) (imm : BitVec 16) (s : State) : Result :=
  loadThen s (effectiveAddress (s.getX xs) imm) 1 fun v => s.retireX xt (sext8 v)

/-- FLD: load float word, bits unchanged (45_memory_access.md R339). -/
def execFld (ft : FReg) (xs : XReg) (imm : BitVec 16) (s : State) : Result :=
  loadThen s (effectiveAddress (s.getX xs) imm) 4 fun v => s.advance.setF ft v

/-! ## Stores -/

/-- STW: store word (45_memory_access.md R336). -/
def execStw (xt xs : XReg) (imm : BitVec 16) (s : State) : Result :=
  storeThen s (effectiveAddress (s.getX xs) imm) 4 (s.getX xt) State.advance

/-- STH: store halfword (45_memory_access.md R337). -/
def execSth (xt xs : XReg) (imm : BitVec 16) (s : State) : Result :=
  storeThen s (effectiveAddress (s.getX xs) imm) 2 (s.getX xt) State.advance

/-- STB: store byte (45_memory_access.md R338). -/
def execStb (xt xs : XReg) (imm : BitVec 16) (s : State) : Result :=
  storeThen s (effectiveAddress (s.getX xs) imm) 1 (s.getX xt) State.advance

/-- FST: store float word, bits unchanged (45_memory_access.md R340). -/
def execFst (ft : FReg) (xs : XReg) (imm : BitVec 16) (s : State) : Result :=
  storeThen s (effectiveAddress (s.getX xs) imm) 4 (s.getF ft) State.advance

/-! ## Stack -/

/-- PUSH: push a register, read before x15 changes (45_memory_access.md R341). -/
def execPush (xs : XReg) (s : State) : Result := pushThenJump s (s.getX xs) (s.pc + 4#32)

/-- POP: pop into a register: x15 first, then the destination, which wins (45_memory_access.md R342). -/
def execPop (xd : XReg) (s : State) : Result := loadThen s s.sp 4 fun v => (s.advance.setX 15 (s.sp + 4#32)).setX xd v

end Sys2Proof.Machine
end

