-- ==== Sys2Proof/Machine/System.lean ====
section
/-! DEFINITION. The meanings of the system and privileged instructions (spec/44_privileged.md). The six of spec/44_privileged.md
R300 check the ring first and take PrivilegeFault in the User ring. -/

namespace Sys2Proof.Machine

/-! ## System and privileged instructions -/

/-- NOP: no operation (44_privileged.md R301). -/
def execNop (s : State) : Result := .next s.advance

/-- HALT: stop the core; x13 stays at the HALT (44_privileged.md R302). -/
def execHalt (s : State) : Result := systemOnly s (s.setHalted (.haltExecuted s.pc))

/-- IRET: return from trap (44_privileged.md R309). -/
def execIret (s : State) : Result := systemOnly s s.trapReturn

/-- RDFL: read flags (44_privileged.md R303). -/
def execRdfl (xd : XReg) (s : State) : Result := .next (s.retireX xd s.flags)

/-- WRFL: write flags, through the codec (44_privileged.md R304). -/
def execWrfl (xs : XReg) (s : State) : Result := systemOnly s (s.advance.setFlags (codecFlags (s.getX xs)))

/-- RDMK: read the interrupt mask (44_privileged.md R305). -/
def execRdmk (xd : XReg) (s : State) : Result := .next (s.retireX xd (s.flagSet.mask.setWidth 32))

/-- WRMK: write the interrupt mask, the other fields unchanged (44_privileged.md R306). -/
def execWrmk (xs : XReg) (s : State) : Result :=
  systemOnly s (s.advance.setFlagSet { s.flagSet with mask := (s.getX xs).setWidth 8 })

/-- RDMM: read the page-table base (44_privileged.md R307). -/
def execRdmm (xd : XReg) (s : State) : Result := systemOnly s (s.retireX xd s.memmap)

/-- WRMM: write the page-table base (44_privileged.md R308). -/
def execWrmm (xs : XReg) (s : State) : Result := systemOnly s (s.advance.setMemmap (s.getX xs))

end Sys2Proof.Machine
end

