-- ==== Sys2Proof/Machine/Dispatch.lean ====
section
/-! DEFINITION. Phases 3 to 5 of the cycle for one decoded instruction, with the trap of a fault it takes
(spec/40_engine.md R145 to R148, R157): one arm per constructor, each one call of that instruction's meaning. -/

namespace Sys2Proof.Machine

def exec (i : Instr) (s : State) : Host.Outcome State Fault Refusal :=
  match i with
  | .nop => Sys2Proof.Machine.execNop s
  | .halt => Sys2Proof.Machine.execHalt s
  | .iret => Sys2Proof.Machine.execIret s
  | .rdfl xd => Sys2Proof.Machine.execRdfl xd s
  | .wrfl xs => Sys2Proof.Machine.execWrfl xs s
  | .rdmk xd => Sys2Proof.Machine.execRdmk xd s
  | .wrmk xs => Sys2Proof.Machine.execWrmk xs s
  | .rdmm xd => Sys2Proof.Machine.execRdmm xd s
  | .wrmm xs => Sys2Proof.Machine.execWrmm xs s
  | .add xd xs1 xs2 => Sys2Proof.Machine.execAdd xd xs1 xs2 s
  | .sub xd xs1 xs2 => Sys2Proof.Machine.execSub xd xs1 xs2 s
  | .mul xd xs1 xs2 => Sys2Proof.Machine.execMul xd xs1 xs2 s
  | .divu xd xs1 xs2 => Sys2Proof.Machine.execDivu xd xs1 xs2 s
  | .divs xd xs1 xs2 => Sys2Proof.Machine.execDivs xd xs1 xs2 s
  | .remu xd xs1 xs2 => Sys2Proof.Machine.execRemu xd xs1 xs2 s
  | .rems xd xs1 xs2 => Sys2Proof.Machine.execRems xd xs1 xs2 s
  | .and xd xs1 xs2 => Sys2Proof.Machine.execAnd xd xs1 xs2 s
  | .or xd xs1 xs2 => Sys2Proof.Machine.execOr xd xs1 xs2 s
  | .xor xd xs1 xs2 => Sys2Proof.Machine.execXor xd xs1 xs2 s
  | .shl xd xs1 xs2 => Sys2Proof.Machine.execShl xd xs1 xs2 s
  | .shr xd xs1 xs2 => Sys2Proof.Machine.execShr xd xs1 xs2 s
  | .sar xd xs1 xs2 => Sys2Proof.Machine.execSar xd xs1 xs2 s
  | .cmp xs1 xs2 => Sys2Proof.Machine.execCmp xs1 xs2 s
  | .mov xd xs => Sys2Proof.Machine.execMov xd xs s
  | .not xd xs => Sys2Proof.Machine.execNot xd xs s
  | .addi xd xs imm => Sys2Proof.Machine.execAddi xd xs imm s
  | .andi xd xs imm => Sys2Proof.Machine.execAndi xd xs imm s
  | .ori xd xs imm => Sys2Proof.Machine.execOri xd xs imm s
  | .xori xd xs imm => Sys2Proof.Machine.execXori xd xs imm s
  | .shli xd xs imm => Sys2Proof.Machine.execShli xd xs imm s
  | .shri xd xs imm => Sys2Proof.Machine.execShri xd xs imm s
  | .sari xd xs imm => Sys2Proof.Machine.execSari xd xs imm s
  | .cmpi xs imm => Sys2Proof.Machine.execCmpi xs imm s
  | .lui xd imm => Sys2Proof.Machine.execLui xd imm s
  | .movi xd imm => Sys2Proof.Machine.execMovi xd imm s
  | .ldw xt xs imm => Sys2Proof.Machine.execLdw xt xs imm s
  | .ldh xt xs imm => Sys2Proof.Machine.execLdh xt xs imm s
  | .ldhs xt xs imm => Sys2Proof.Machine.execLdhs xt xs imm s
  | .ldb xt xs imm => Sys2Proof.Machine.execLdb xt xs imm s
  | .ldbs xt xs imm => Sys2Proof.Machine.execLdbs xt xs imm s
  | .stw xt xs imm => Sys2Proof.Machine.execStw xt xs imm s
  | .sth xt xs imm => Sys2Proof.Machine.execSth xt xs imm s
  | .stb xt xs imm => Sys2Proof.Machine.execStb xt xs imm s
  | .fld ft xs imm => Sys2Proof.Machine.execFld ft xs imm s
  | .fst ft xs imm => Sys2Proof.Machine.execFst ft xs imm s
  | .push xs => Sys2Proof.Machine.execPush xs s
  | .pop xd => Sys2Proof.Machine.execPop xd s
  | .bal imm => Sys2Proof.Machine.execBal imm s
  | .beq imm => Sys2Proof.Machine.execBeq imm s
  | .bne imm => Sys2Proof.Machine.execBne imm s
  | .bcs imm => Sys2Proof.Machine.execBcs imm s
  | .bcc imm => Sys2Proof.Machine.execBcc imm s
  | .bmi imm => Sys2Proof.Machine.execBmi imm s
  | .bpl imm => Sys2Proof.Machine.execBpl imm s
  | .bvs imm => Sys2Proof.Machine.execBvs imm s
  | .bvc imm => Sys2Proof.Machine.execBvc imm s
  | .bhi imm => Sys2Proof.Machine.execBhi imm s
  | .bls imm => Sys2Proof.Machine.execBls imm s
  | .bge imm => Sys2Proof.Machine.execBge imm s
  | .blt imm => Sys2Proof.Machine.execBlt imm s
  | .bgt imm => Sys2Proof.Machine.execBgt imm s
  | .ble imm => Sys2Proof.Machine.execBle imm s
  | .bod imm => Sys2Proof.Machine.execBod imm s
  | .bev imm => Sys2Proof.Machine.execBev imm s
  | .bnan imm => Sys2Proof.Machine.execBnan imm s
  | .binf imm => Sys2Proof.Machine.execBinf imm s
  | .jmp imm => Sys2Proof.Machine.execJmp imm s
  | .call imm => Sys2Proof.Machine.execCall imm s
  | .jmpr xs => Sys2Proof.Machine.execJmpr xs s
  | .callr xs => Sys2Proof.Machine.execCallr xs s
  | .ret => Sys2Proof.Machine.execRet s
  | .fadd fd fs1 fs2 => Sys2Proof.Machine.execFadd fd fs1 fs2 s
  | .fsub fd fs1 fs2 => Sys2Proof.Machine.execFsub fd fs1 fs2 s
  | .fmul fd fs1 fs2 => Sys2Proof.Machine.execFmul fd fs1 fs2 s
  | .fdiv fd fs1 fs2 => Sys2Proof.Machine.execFdiv fd fs1 fs2 s
  | .fmov fd fs => Sys2Proof.Machine.execFmov fd fs s
  | .itof fd xs => Sys2Proof.Machine.execItof fd xs s
  | .ftoi xd fs => Sys2Proof.Machine.execFtoi xd fs s
  | .movxf fd xs => Sys2Proof.Machine.execMovxf fd xs s
  | .movfx xd fs => Sys2Proof.Machine.execMovfx xd fs s
  | .feq xd fs1 fs2 => Sys2Proof.Machine.execFeq xd fs1 fs2 s
  | .flt xd fs1 fs2 => Sys2Proof.Machine.execFlt xd fs1 fs2 s
  | .fle xd fs1 fs2 => Sys2Proof.Machine.execFle xd fs1 fs2 s

end Sys2Proof.Machine
end

