-- ==== Sys2Proof/Machine/Interrupt.lean ====
section
/-! DEFINITION. The interrupt controller (spec/60_exceptions.md R370 to R377), the phases of the cycle around Execute
that are not an instruction's own (spec/40_engine.md R142, R143, R144, R157), and the fetch. -/

namespace Sys2Proof.Machine

/-- The state of a line (60_exceptions.md R372). -/
inductive LineState where
  | idle | pending | queued | dispatching
  deriving DecidableEq, Repr

/-- The state of line `l` as a function of PENDING, MASK and the phase (60_exceptions.md R372): `atCheckpoint` is false
between the raise and the next checkpoint. -/
def State.lineState (s : State) (atCheckpoint : Bool) (l : Line) : LineState :=
  if s.pending.getLsbD l.val then
    if atCheckpoint then (if s.flagSet.mask.getLsbD l.val then .dispatching else .queued) else .pending
  else .idle

/-- `serviceNext()`'s choice: the lowest line that is Dispatching at the checkpoint (60_exceptions.md R373, R374). -/
def State.eligibleLine (s : State) : Option Line :=
  (List.finRange 8).find? fun l => s.lineState true l == .dispatching

/-- Phase 0: a raised line is latched (40_engine.md R142; 60_exceptions.md R370). -/
def State.latch (s : State) (raise : Option Line) : State :=
  match raise with
  | none => s
  | some l => s.setPending (s.pending ||| (1#8 <<< l.val))

/-- Phase 1: the instruction word at x13 (40_engine.md R143). -/
def State.fetch (s : State) : Except AccessFault Word := s.fetchRead s.pc

/-- Phase 2's failure: the core halts and nothing else changes (40_engine.md R144; 60_exceptions.md R365). -/
def State.haltInvalid (s : State) (w : Word) : State := s.setHalted (.invalidOpcode s.pc w)

/-- Phase 6 for a step that took no fault: the lowest eligible line is taken, with the committed next pc as its return
address (40_engine.md R157); a halted core takes none (R159). After a fault's own trap entry MASK is 0, so this takes
no second trap (R158). -/
def State.checkpoint (s : State) : State :=
  match s.halted with
  | .running =>
    match s.eligibleLine with
    | none => s
    | some l => s.trapEntry (.line l) s.pc 0#32 0#32
  | .haltExecuted _ | .invalidOpcode _ _ => s

/-- The raise presented to the next step (log entry 5). -/
def State.nextRaise (s : State) : Option Line :=
  match s.raises with
  | [] => none
  | r :: _ => r

/-- The state once the step has taken its input. -/
def State.consumeRaise (s : State) : State := s.setRaises s.raises.tail

/-- The state a running core's step fetches from: its input taken and latched (40_engine.md R142). -/
def State.begun (s : State) : State := s.consumeRaise.latch s.nextRaise

end Sys2Proof.Machine
end

