-- ==== Sys2Proof/Machine/Engine.lean ====
section
/-! DEFINITION. The instruction cycle (spec/40_engine.md R140 to R164), with the decoder and the raise as arguments. -/

namespace Sys2Proof.Machine

/-- The end of a step whose instruction reached Execute: the checkpoint on the state it answers (40_engine.md R157). -/
def finish : Result → Result
  | .next s => .next s.checkpoint
  | .fault r => .fault r
  | .refused r => .refused r

/-- Phases 1 to 6 of a running core whose raise is latched (40_engine.md R143 to R157). -/
def fetchAndExecute (decoder : Word → Option Instr) (s : State) : Result :=
  match s.fetch with
  | .error f => .next (s.accessFault f)
  | .ok w =>
    match decoder w with
    | none => .next (s.haltInvalid w)
    | some i => finish (exec i s)

/-- One step as the spec types it, `(State, optional ExternalInterruptRaise) -> State`, with DECODER a parameter
(40_engine.md R140; 30_encoding.md R117). A halted core changes nothing and ignores the raise (R141). -/
def cycle (decoder : Word → Option Instr) (raise : Option Line) (s : State) : Result :=
  match s.halted with
  | .running => fetchAndExecute decoder (s.latch raise)
  | .haltExecuted _ | .invalidOpcode _ _ => .next s

/-- The step with the raise taken from the state's own list (log entry 5) and the decoder of cpuwu-ref (R117). A halted
core takes no input. -/
def scheduledCycle (s : State) : Result :=
  match s.halted with
  | .running => cycle decode s.nextRaise s.consumeRaise
  | .haltExecuted _ | .invalidOpcode _ _ => .next s

end Sys2Proof.Machine
end

