-- ==== Sys2Proof/Machine/Step.lean ====
section
/-! DEFINITION. The step function, and the placing of one instruction where the next step fetches it. -/

namespace Sys2Proof.Machine

/-- One step of the machine (spec/40_engine.md R140). -/
def step : State → Host.Outcome State Fault Refusal := scheduledCycle

/-- The state with a word at x13 in physical memory and translation off. -/
def State.withPhysicalFetchWord (s : State) (w : Word) : State :=
  (s.setFlagSet { s.flagSet with m := false }).physWrite s.pc 4 w

/-- The state with an opcode-table row's `nbits` bits `w` where the next step fetches: the core is running, and the four
bytes stand at the addresses x13 translates to with kind Execute, which is x13 itself when M = 0. Where translation
fails, or writing the bytes changes what x13 translates to, translation is turned off and they stand at x13. -/
def State.withFetchWord (s : State) (nbits w : Nat) : State :=
  let word := BitVec.ofNat 32 (w % 2 ^ nbits)
  let running := s.setHalted .running
  match running.translateBytes .execute running.pc 4 with
  | .error _ => running.withPhysicalFetchWord word
  | .ok pas =>
    let placed := running.setMem (running.mem.writeAll (pas.zip (leBytes 4 word)))
    match placed.fetch with
    | .error _ => running.withPhysicalFetchWord word
    | .ok fetched => if fetched = word then placed else running.withPhysicalFetchWord word

end Sys2Proof.Machine
end

