-- ==== Sys2Proof/Machine/HostPort.lean ====
section
/-! DEFINITION. What the host can do between steps (spec/70_reset_and_hazards.md R425): the register-file port
(spec/10_state.md R25), the reset action (spec/70_reset_and_hazards.md R423), and the launch image
(spec/70_reset_and_hazards.md R422). `step` calls none of these. -/

namespace Sys2Proof.Machine

/-- A register-file entry: 0..15 x, 16..31 f, 32 flags, 33 memmap (10_state.md R20). An id outside 0..33 cannot be
written down (R25). -/
abbrev RegId := Fin 34

/-- The port's `read(id)` (10_state.md R25). -/
def State.portRead (s : State) (id : RegId) : Word :=
  if h : id.val < 16 then s.getX ⟨id.val, h⟩
  else if h : id.val - 16 < 16 then s.getF ⟨id.val - 16, h⟩
  else if id.val = 32 then s.flags
  else s.memmap

/-- The port's `write(id, v)`: exactly the value is stored, the flags' reserved bits included (10_state.md R25;
90_conflicts.md C3; log entry 8). -/
def State.portWrite (s : State) (id : RegId) (v : Word) : State :=
  if h : id.val < 16 then s.setX ⟨id.val, h⟩ v
  else if h : id.val - 16 < 16 then s.setF ⟨id.val - 16, h⟩ v
  else if id.val = 32 then s.setFlags v
  else s.setMemmap v

/-- A host write of `mask`, which is the MASK field of flags (10_state.md R28). -/
def State.portWriteMask (s : State) (mask : BitVec 8) : State := s.setFlagSet { s.flagSet with mask := mask }

/-- The host's reset, at any time: every register and status as after power-on, memory kept (70_reset_and_hazards.md
R423). The raises still to be presented are the host's own and stay (log entry 13). -/
def State.hostReset (s : State) : State := (State.reset.setMem s.mem).setRaises s.raises

/-- One piece of the launch image, written through the backing store (70_reset_and_hazards.md R422). -/
def State.loadImage (s : State) (pa : Word) (data : List Byte) : State := s.writeBytes pa data

end Sys2Proof.Machine
end

