-- ==== Sys2Proof/Machine/Operation.lean ====
section
/-! DEFINITION. What the engine reads off a decoded operation beside its operands (spec/40_engine.md R161): its kind,
whether it needs the System ring, and its flags category, as the columns of spec/30_encoding.md R110 give them. -/

namespace Sys2Proof.Machine

/-- The operation kinds (40_engine.md R161). -/
inductive Kind where
  | arithmetic | floatArithmetic | branch | privilegedControl | memoryAccess
  deriving DecidableEq, Repr

/-- The flags categories (40_engine.md R152). -/
inductive Category where
  /-- The instruction ends in the integer-result update (R153). -/
  | int
  /-- The instruction ends in the float-result update (R154). -/
  | float
  /-- No update by category (R156). -/
  | none
  deriving DecidableEq, Repr

/-- The kind: the family file of the instruction (R161). -/
def kind : Instr → Kind
  | .nop | .halt | .iret | .rdfl _ | .wrfl _ | .rdmk _ | .wrmk _ | .rdmm _ | .wrmm _ => .privilegedControl
  | .add _ _ _ | .sub _ _ _ | .mul _ _ _ | .divu _ _ _ | .divs _ _ _ | .remu _ _ _ | .rems _ _ _ | .and _ _ _
  | .or _ _ _ | .xor _ _ _ | .shl _ _ _ | .shr _ _ _ | .sar _ _ _ | .cmp _ _ | .mov _ _ | .not _ _ | .addi _ _ _
  | .andi _ _ _ | .ori _ _ _ | .xori _ _ _ | .shli _ _ _ | .shri _ _ _ | .sari _ _ _ | .cmpi _ _ | .lui _ _
  | .movi _ _ => .arithmetic
  | .ldw _ _ _ | .ldh _ _ _ | .ldhs _ _ _ | .ldb _ _ _ | .ldbs _ _ _ | .stw _ _ _ | .sth _ _ _ | .stb _ _ _
  | .fld _ _ _ | .fst _ _ _ | .push _ | .pop _ => .memoryAccess
  | .bal _ | .beq _ | .bne _ | .bcs _ | .bcc _ | .bmi _ | .bpl _ | .bvs _ | .bvc _ | .bhi _ | .bls _ | .bge _
  | .blt _ | .bgt _ | .ble _ | .bod _ | .bev _ | .bnan _ | .binf _ | .jmp _ | .call _ | .jmpr _ | .callr _ | .ret => .branch
  | .fadd _ _ _ | .fsub _ _ _ | .fmul _ _ _ | .fdiv _ _ _ | .fmov _ _ | .itof _ _ | .ftoi _ _ | .movxf _ _
  | .movfx _ _ | .feq _ _ _ | .flt _ _ _ | .fle _ _ _ => .floatArithmetic

/-- requiresSystemRing: the six of 44_privileged.md R300. -/
def requiresSystemRing : Instr → Bool
  | .halt | .iret | .wrfl _ | .wrmk _ | .rdmm _ | .wrmm _ => true
  | .nop | .rdfl _ | .rdmk _ | .add _ _ _ | .sub _ _ _ | .mul _ _ _ | .divu _ _ _ | .divs _ _ _ | .remu _ _ _
  | .rems _ _ _ | .and _ _ _ | .or _ _ _ | .xor _ _ _ | .shl _ _ _ | .shr _ _ _ | .sar _ _ _ | .cmp _ _ | .mov _ _
  | .not _ _ | .addi _ _ _ | .andi _ _ _ | .ori _ _ _ | .xori _ _ _ | .shli _ _ _ | .shri _ _ _ | .sari _ _ _
  | .cmpi _ _ | .lui _ _ | .movi _ _ | .ldw _ _ _ | .ldh _ _ _ | .ldhs _ _ _ | .ldb _ _ _ | .ldbs _ _ _ | .stw _ _ _
  | .sth _ _ _ | .stb _ _ _ | .fld _ _ _ | .fst _ _ _ | .push _ | .pop _ | .bal _ | .beq _ | .bne _ | .bcs _ | .bcc _
  | .bmi _ | .bpl _ | .bvs _ | .bvc _ | .bhi _ | .bls _ | .bge _ | .blt _ | .bgt _ | .ble _ | .bod _ | .bev _
  | .bnan _ | .binf _ | .jmp _ | .call _ | .jmpr _ | .callr _ | .ret | .fadd _ _ _ | .fsub _ _ _ | .fmul _ _ _
  | .fdiv _ _ _ | .fmov _ _ | .itof _ _ | .ftoi _ _ | .movxf _ _ | .movfx _ _ | .feq _ _ _ | .flt _ _ _ | .fle _ _ _ => false

/-- The flags category (40_engine.md R152). -/
def category : Instr → Category
  | .add _ _ _ | .sub _ _ _ | .mul _ _ _ | .divu _ _ _ | .divs _ _ _ | .remu _ _ _ | .rems _ _ _ | .and _ _ _
  | .or _ _ _ | .xor _ _ _ | .shl _ _ _ | .shr _ _ _ | .sar _ _ _ | .cmp _ _ | .mov _ _ | .not _ _ | .addi _ _ _
  | .andi _ _ _ | .ori _ _ _ | .xori _ _ _ | .shli _ _ _ | .shri _ _ _ | .sari _ _ _ | .cmpi _ _ | .lui _ _
  | .movi _ _ | .ftoi _ _ | .movfx _ _ | .feq _ _ _ | .flt _ _ _ | .fle _ _ _ => .int
  | .fadd _ _ _ | .fsub _ _ _ | .fmul _ _ _ | .fdiv _ _ _ | .fmov _ _ | .itof _ _ | .movxf _ _ => .float
  | .nop | .halt | .iret | .rdfl _ | .wrfl _ | .rdmk _ | .wrmk _ | .rdmm _ | .wrmm _ | .ldw _ _ _ | .ldh _ _ _
  | .ldhs _ _ _ | .ldb _ _ _ | .ldbs _ _ _ | .stw _ _ _ | .sth _ _ _ | .stb _ _ _ | .fld _ _ _ | .fst _ _ _ | .push _
  | .pop _ | .bal _ | .beq _ | .bne _ | .bcs _ | .bcc _ | .bmi _ | .bpl _ | .bvs _ | .bvc _ | .bhi _ | .bls _
  | .bge _ | .blt _ | .bgt _ | .ble _ | .bod _ | .bev _ | .bnan _ | .binf _ | .jmp _ | .call _ | .jmpr _ | .callr _
  | .ret => .none

/-- The `match` and `mask` columns of an instruction's row (30_encoding.md R110). -/
def tableRow : Instr → Word × Word
  | .nop => (0x01000000, 0xFFFFFFFF)
  | .halt => (0x02000000, 0xFFFFFFFF)
  | .iret => (0x03000000, 0xFFFFFFFF)
  | .rdfl _ => (0x04000000, 0xFF0FFFFF)
  | .wrfl _ => (0x05000000, 0xFFF0FFFF)
  | .rdmk _ => (0x06000000, 0xFF0FFFFF)
  | .wrmk _ => (0x07000000, 0xFFF0FFFF)
  | .rdmm _ => (0x08000000, 0xFF0FFFFF)
  | .wrmm _ => (0x09000000, 0xFFF0FFFF)
  | .add _ _ _ => (0x10000000, 0xFF000FFF)
  | .sub _ _ _ => (0x11000000, 0xFF000FFF)
  | .mul _ _ _ => (0x12000000, 0xFF000FFF)
  | .divu _ _ _ => (0x13000000, 0xFF000FFF)
  | .divs _ _ _ => (0x14000000, 0xFF000FFF)
  | .remu _ _ _ => (0x15000000, 0xFF000FFF)
  | .rems _ _ _ => (0x16000000, 0xFF000FFF)
  | .and _ _ _ => (0x17000000, 0xFF000FFF)
  | .or _ _ _ => (0x18000000, 0xFF000FFF)
  | .xor _ _ _ => (0x19000000, 0xFF000FFF)
  | .shl _ _ _ => (0x1A000000, 0xFF000FFF)
  | .shr _ _ _ => (0x1B000000, 0xFF000FFF)
  | .sar _ _ _ => (0x1C000000, 0xFF000FFF)
  | .cmp _ _ => (0x1D000000, 0xFFF00FFF)
  | .mov _ _ => (0x1E000000, 0xFF00FFFF)
  | .not _ _ => (0x1F000000, 0xFF00FFFF)
  | .addi _ _ _ => (0x20000000, 0xFF000000)
  | .andi _ _ _ => (0x21000000, 0xFF000000)
  | .ori _ _ _ => (0x22000000, 0xFF000000)
  | .xori _ _ _ => (0x23000000, 0xFF000000)
  | .shli _ _ _ => (0x24000000, 0xFF00FFE0)
  | .shri _ _ _ => (0x25000000, 0xFF00FFE0)
  | .sari _ _ _ => (0x26000000, 0xFF00FFE0)
  | .cmpi _ _ => (0x27000000, 0xFFF00000)
  | .lui _ _ => (0x28000000, 0xFF0F0000)
  | .movi _ _ => (0x29000000, 0xFF0F0000)
  | .ldw _ _ _ => (0x30000000, 0xFF000000)
  | .ldh _ _ _ => (0x31000000, 0xFF000000)
  | .ldhs _ _ _ => (0x32000000, 0xFF000000)
  | .ldb _ _ _ => (0x33000000, 0xFF000000)
  | .ldbs _ _ _ => (0x34000000, 0xFF000000)
  | .stw _ _ _ => (0x35000000, 0xFF000000)
  | .sth _ _ _ => (0x36000000, 0xFF000000)
  | .stb _ _ _ => (0x37000000, 0xFF000000)
  | .fld _ _ _ => (0x38000000, 0xFF000000)
  | .fst _ _ _ => (0x39000000, 0xFF000000)
  | .push _ => (0x3A000000, 0xFFF0FFFF)
  | .pop _ => (0x3B000000, 0xFF0FFFFF)
  | .bal _ => (0x40000000, 0xFFF80000)
  | .beq _ => (0x40080000, 0xFFF80000)
  | .bne _ => (0x40100000, 0xFFF80000)
  | .bcs _ => (0x40180000, 0xFFF80000)
  | .bcc _ => (0x40200000, 0xFFF80000)
  | .bmi _ => (0x40280000, 0xFFF80000)
  | .bpl _ => (0x40300000, 0xFFF80000)
  | .bvs _ => (0x40380000, 0xFFF80000)
  | .bvc _ => (0x40400000, 0xFFF80000)
  | .bhi _ => (0x40480000, 0xFFF80000)
  | .bls _ => (0x40500000, 0xFFF80000)
  | .bge _ => (0x40580000, 0xFFF80000)
  | .blt _ => (0x40600000, 0xFFF80000)
  | .bgt _ => (0x40680000, 0xFFF80000)
  | .ble _ => (0x40700000, 0xFFF80000)
  | .bod _ => (0x40780000, 0xFFF80000)
  | .bev _ => (0x40800000, 0xFFF80000)
  | .bnan _ => (0x40880000, 0xFFF80000)
  | .binf _ => (0x40900000, 0xFFF80000)
  | .jmp _ => (0x41000000, 0xFF000000)
  | .call _ => (0x42000000, 0xFF000000)
  | .jmpr _ => (0x43000000, 0xFFF0FFFF)
  | .callr _ => (0x44000000, 0xFFF0FFFF)
  | .ret => (0x45000000, 0xFFFFFFFF)
  | .fadd _ _ _ => (0x50000000, 0xFF000FFF)
  | .fsub _ _ _ => (0x51000000, 0xFF000FFF)
  | .fmul _ _ _ => (0x52000000, 0xFF000FFF)
  | .fdiv _ _ _ => (0x53000000, 0xFF000FFF)
  | .fmov _ _ => (0x54000000, 0xFF00FFFF)
  | .itof _ _ => (0x55000000, 0xFF00FFFF)
  | .ftoi _ _ => (0x56000000, 0xFF00FFFF)
  | .movxf _ _ => (0x57000000, 0xFF00FFFF)
  | .movfx _ _ => (0x58000000, 0xFF00FFFF)
  | .feq _ _ _ => (0x59000000, 0xFF000FFF)
  | .flt _ _ _ => (0x5A000000, 0xFF000FFF)
  | .fle _ _ _ => (0x5B000000, 0xFF000FFF)

end Sys2Proof.Machine
end

