-- ==== Sys2Proof/Safety.lean ====
section
/-! DEFINITION. What counts as a good state and a good run, and the terms the claims are stated in: what an instruction
leaves alone, what it writes, what a trap leaves, and what a binary32 pattern stands for. -/

namespace Sys2Proof.Machine

/-! ## Good states -/

/-- The core is running (spec/10_state.md R41). -/
abbrev State.Running (s : State) : Prop := s.halted = .running

/-- The reserved bits 31:20 of flags are zero, as in every state a program can reach (spec/10_state.md R27;
spec/90_conflicts.md C3). -/
abbrev State.ReservedZero (s : State) : Prop := s.flags &&& 0xFFF00000#32 = 0#32

/-- The invariant of the machine: memory in its canonical form, and the reserved flag bits zero. -/
abbrev State.Inv (s : State) : Prop := Memory.wf s.mem = true ∧ s.ReservedZero

/-- The state a trap entry leaves a handler in: System ring, translation off, every line masked
(spec/60_exceptions.md R383). -/
abbrev State.InHandler (s : State) : Prop :=
  s.flagSet.r = false ∧ s.flagSet.m = false ∧ s.flagSet.mask = 0#8

/-! ## Frames -/

/-- Every byte of memory reads as before. -/
def SameMemory (s t : State) : Prop := ∀ a, Memory.read t.mem a = Memory.read s.mem a

/-- Every f register is as before. -/
def SameF (s t : State) : Prop := ∀ j, t.getF j = s.getF j

/-- Every x register but those named is as before. -/
def SameXBut (named : List XReg) (s t : State) : Prop := ∀ j, j ∉ named → t.getX j = s.getX j

/-- PENDING, HALTED and the raises to come are as before. -/
def SameCore (s t : State) : Prop := t.pending = s.pending ∧ t.halted = s.halted ∧ t.raises = s.raises

/-- An x register gets a value, the pc moves on unless it is that register, and no other x register changes
(spec/40_engine.md R149, R151). -/
def WritesX (s t : State) (xd : XReg) (v : Word) : Prop :=
  t.getX xd = v ∧ (xd ≠ 13 → t.getX 13 = s.getX 13 + 4#32) ∧ SameXBut [xd, 13] s t

/-- An f register gets a value, the pc moves on, and no other register changes. -/
def WritesF (s t : State) (fd : FReg) (b : Word) : Prop :=
  t.getF fd = b ∧ (∀ j, j ≠ fd → t.getF j = s.getF j) ∧ t.getX 13 = s.getX 13 + 4#32 ∧ SameXBut [13] s t

/-- The pc gets a value and no other register changes. -/
def Jumps (s t : State) (target : Word) : Prop := t.getX 13 = target ∧ SameXBut [13] s t ∧ SameF s t

/-- The integer-result update of spec/40_engine.md R153 for the result `r`, the carry `c` and the overflow `v`; every
other field is as before. -/
def IntFlags (s t : State) (r : Word) (c v : Prop) : Prop :=
  (t.flagSet.z = true ↔ r = 0#32) ∧ (t.flagSet.n = true ↔ 2 ^ 31 ≤ r.toNat) ∧ (t.flagSet.p = true ↔ r.toNat % 2 = 1) ∧
    (t.flagSet.c = true ↔ c) ∧ (t.flagSet.v = true ↔ v) ∧
    t.flagSet.mask = s.flagSet.mask ∧ t.flagSet.lll = s.flagSet.lll ∧ t.flagSet.a = s.flagSet.a ∧
    t.flagSet.f = s.flagSet.f ∧ t.flagSet.r = s.flagSet.r ∧ t.flagSet.m = s.flagSet.m ∧ t.ReservedZero

/-- The float-result update of spec/40_engine.md R154 for the pattern `b`; every other field is as before. -/
def FloatFlags (s t : State) (b : Word) : Prop :=
  (t.flagSet.a = true ↔ b.toNat / 2 ^ 23 % 2 ^ 8 = 255 ∧ b.toNat % 2 ^ 23 ≠ 0) ∧
    (t.flagSet.f = true ↔ b.toNat / 2 ^ 23 % 2 ^ 8 = 255 ∧ b.toNat % 2 ^ 23 = 0) ∧
    t.flagSet.mask = s.flagSet.mask ∧ t.flagSet.lll = s.flagSet.lll ∧ t.flagSet.z = s.flagSet.z ∧
    t.flagSet.v = s.flagSet.v ∧ t.flagSet.c = s.flagSet.c ∧ t.flagSet.n = s.flagSet.n ∧ t.flagSet.p = s.flagSet.p ∧
    t.flagSet.r = s.flagSet.r ∧ t.flagSet.m = s.flagSet.m ∧ t.ReservedZero

/-- The instruction answers a next state that writes `r` to `xd`, updates the integer flags, and changes nothing else. -/
def CompletesInt (i : Instr) (s : State) (xd : XReg) (r : Word) (c v : Prop) : Prop :=
  ∃ t, exec i s = .next t ∧ WritesX s t xd r ∧ IntFlags s t r c v ∧ SameF s t ∧ SameCore s t ∧ t.memmap = s.memmap ∧
    SameMemory s t

/-- The instruction answers a next state that updates the integer flags from `r`, moves the pc on, and changes nothing
else. -/
def CompletesCompare (i : Instr) (s : State) (r : Word) (c v : Prop) : Prop :=
  ∃ t, exec i s = .next t ∧ Jumps s t (s.getX 13 + 4#32) ∧ IntFlags s t r c v ∧ SameCore s t ∧ t.memmap = s.memmap ∧
    SameMemory s t

/-- The instruction answers a next state that writes `b` to `fd`, updates the float flags, and changes nothing else. -/
def CompletesFloat (i : Instr) (s : State) (fd : FReg) (b : Word) : Prop :=
  ∃ t, exec i s = .next t ∧ WritesF s t fd b ∧ FloatFlags s t b ∧ SameCore s t ∧ t.memmap = s.memmap ∧ SameMemory s t

/-- The instruction answers a next state that writes `v` to `xd` and changes nothing else. -/
def CompletesX (i : Instr) (s : State) (xd : XReg) (v : Word) : Prop :=
  ∃ t, exec i s = .next t ∧ WritesX s t xd v ∧ t.flags = s.flags ∧ SameF s t ∧ SameCore s t ∧ t.memmap = s.memmap ∧
    SameMemory s t

/-- The instruction answers a next state whose pc is `target`, and changes nothing else. -/
def CompletesJump (i : Instr) (s : State) (target : Word) : Prop :=
  ∃ t, exec i s = .next t ∧ Jumps s t target ∧ t.flags = s.flags ∧ SameCore s t ∧ t.memmap = s.memmap ∧ SameMemory s t

/-- The instruction branches to pc plus four times the signed offset when `taken`, else falls through, and changes
nothing else (spec/43_control.md R261). -/
def BranchesIf (i : Instr) (imm : BitVec 19) (s : State) (taken : Prop) : Prop :=
  (taken → CompletesJump i s (BitVec.ofInt 32 ((s.getX 13).toNat + 4 * imm.toInt))) ∧
    (¬taken → CompletesJump i s (s.getX 13 + 4#32))

/-! ## Words of instructions (spec/30_encoding.md R101) -/

/-- The instruction's word in format N or R: the major opcode and the three register fields. -/
def EncodedR (i : Instr) (op : Nat) (rd rs1 rs2 : Fin 16) : Prop :=
  (encode i).toNat = op * 2 ^ 24 + rd.val * 2 ^ 20 + rs1.val * 2 ^ 16 + rs2.val * 2 ^ 12

/-- The instruction's word in format I. -/
def EncodedI (i : Instr) (op : Nat) (rd rs1 : Fin 16) (imm : Nat) : Prop :=
  (encode i).toNat = op * 2 ^ 24 + rd.val * 2 ^ 20 + rs1.val * 2 ^ 16 + imm

/-- The instruction's word in format B. -/
def EncodedB (i : Instr) (cond : Nat) (imm : BitVec 19) : Prop :=
  (encode i).toNat = 0x40 * 2 ^ 24 + cond * 2 ^ 19 + imm.toNat

/-- The instruction's word in format J. -/
def EncodedJ (i : Instr) (op : Nat) (imm : BitVec 24) : Prop := (encode i).toNat = op * 2 ^ 24 + imm.toNat

/-! ## Bytes -/

/-- The value of bytes in ascending address order, as the sum of spec/20_memory.md R64. -/
def byteSum : List Byte → Nat
  | [] => 0
  | b :: bs => b.toNat + 256 * byteSum bs

/-- The bytes at physical addresses. -/
def State.bytesAt (s : State) (pas : List Word) : List Byte := pas.map fun pa => Memory.read s.mem pa.toNat

/-- Byte `i` of a value, byte 0 the least significant. -/
def byteOf (v : Word) (i : Nat) : Byte := v.extractLsb' (8 * i) 8

/-- The low bytes of `v` stand at the addresses `pas`, in ascending order; where two of the addresses are one, the later
byte stands there (spec/20_memory.md R69). Every byte elsewhere is as before. -/
def StoresAt (s t : State) (pas : List Word) (v : Word) : Prop :=
  (∀ i (h : i < pas.length), (∀ j (hj : j < pas.length), i < j → pas[j] ≠ pas[i]) →
      Memory.read t.mem pas[i].toNat = byteOf v i) ∧
    ∀ a, (∀ i (h : i < pas.length), pas[i].toNat ≠ a) → Memory.read t.mem a = Memory.read s.mem a

/-- The instruction answers a next state with the low bytes of `v` at `pas`, the pc at `target`, x15 at `sp`, and changes
nothing else. A store that leaves x15 alone gives `sp` as x15 itself. -/
def CompletesStore (i : Instr) (s : State) (pas : List Word) (v sp target : Word) : Prop :=
  ∃ t, exec i s = .next t ∧ StoresAt s t pas v ∧ t.getX 13 = target ∧ t.getX 15 = sp ∧ SameXBut [13, 15] s t ∧
    SameF s t ∧ t.flags = s.flags ∧ SameCore s t ∧ t.memmap = s.memmap

/-! ## Traps -/

/-- The little-endian word at a physical address, as a sum of its bytes. -/
def State.wordAt (s : State) (pa : Nat) : Nat :=
  byteSum [Memory.read s.mem pa, Memory.read s.mem (pa + 1), Memory.read s.mem (pa + 2), Memory.read s.mem (pa + 3)]

/-- `t` is `s` after taking a trap (spec/60_exceptions.md R381 to R383): the save area holds the return address, the flags
before entry, the cause and kind, and the info; the pc is the cause's word of the vector table; MASK, R and M are clear;
for a line, LLL is the line and its PENDING bit is clear; nothing else changes. -/
def TrapTaken (s t : State) (cause kind : Nat) (retpc info : Word) : Prop :=
  t.wordAt 0x40 = retpc.toNat ∧ t.wordAt 0x44 = s.flags.toNat ∧ t.wordAt 0x48 = cause + 256 * kind ∧
    t.wordAt 0x4C = info.toNat ∧ (∀ a, a < 0x40 ∨ 0x50 ≤ a → Memory.read t.mem a = Memory.read s.mem a) ∧
    (t.getX 13).toNat = s.wordAt (4 * cause) ∧ SameXBut [13] s t ∧ SameF s t ∧
    t.InHandler ∧ t.ReservedZero ∧
    t.flagSet.lll.toNat = (if cause < 8 then cause else s.flagSet.lll.toNat) ∧
    (t.flagSet.z = s.flagSet.z ∧ t.flagSet.v = s.flagSet.v ∧ t.flagSet.c = s.flagSet.c ∧ t.flagSet.n = s.flagSet.n ∧
      t.flagSet.p = s.flagSet.p ∧ t.flagSet.a = s.flagSet.a ∧ t.flagSet.f = s.flagSet.f) ∧
    (∀ l, l < 8 → (t.pending.getLsbD l = true ↔ s.pending.getLsbD l = true ∧ l ≠ cause)) ∧
    t.memmap = s.memmap ∧ t.halted = s.halted ∧ t.raises = s.raises

/-- The cause code of an MMU fault (spec/60_exceptions.md R361). -/
def faultCause : MmuFault → Nat
  | .page => 8
  | .protection => 9

/-- The kind recorded for an access (spec/60_exceptions.md R366). -/
def faultKind : AccessKind → Nat
  | .read => 0
  | .write => 1
  | .execute => 2

/-- The instruction takes the trap of a failed access: cause and kind of the fault, the faulting byte's address as info,
the instruction's own address as the return address. -/
def TakesAccessFault (i : Instr) (s : State) (f : AccessFault) : Prop :=
  ∃ t, exec i s = .next t ∧ TrapTaken s t (faultCause f.fault) (faultKind f.kind) (s.getX 13) f.va

/-- The instruction reads `n` bytes at `ea`: when they all translate it completes from the bytes at their physical
addresses, and when one fails it takes that access's trap, of kind Read. -/
def LoadsFrom (i : Instr) (s : State) (ea : Word) (n : Nat) (completes : List Word → Prop) : Prop :=
  (∀ pas, s.translateBytes .read ea n = .ok pas → completes pas) ∧
    ∀ f, s.translateBytes .read ea n = .error f → f.kind = .read ∧ TakesAccessFault i s f

/-- The instruction writes `n` bytes at `ea`: when they all translate it completes with the bytes at their physical
addresses, and when one fails it takes that access's trap, of kind Write, and no byte of the store is written. -/
def StoresTo (i : Instr) (s : State) (ea : Word) (n : Nat) (completes : List Word → Prop) : Prop :=
  (∀ pas, s.translateBytes .write ea n = .ok pas → completes pas) ∧
    ∀ f, s.translateBytes .write ea n = .error f → f.kind = .write ∧ TakesAccessFault i s f

/-- The effective address of spec/45_memory_access.md R330: base plus signed offset, modulo 2^32. -/
def addressOf (s : State) (xs : XReg) (imm : BitVec 16) : Word := BitVec.ofInt 32 ((s.getX xs).toNat + imm.toInt)

/-- The instruction answers a next state with these flags and this memmap, the pc moved on, and nothing else changed. -/
def CompletesSystem (i : Instr) (s : State) (flags memmap : Word) : Prop :=
  ∃ t, exec i s = .next t ∧ Jumps s t (s.getX 13 + 4#32) ∧ t.flags = flags ∧ t.memmap = memmap ∧ SameCore s t ∧
    SameMemory s t

/-! ## The page tables -/

/-- The first-level entry of a virtual address: word `va[31:24]` of the table at memmap (spec/20_memory.md R75, R76). -/
def State.entry1 (s : State) (va : Word) : Word := s.physRead (s.memmap + BitVec.ofNat 32 (4 * (va.toNat / 2 ^ 24))) 4

/-- The second-level entry of a virtual address: word `va[23:16]` of the table its first-level entry points to
(spec/20_memory.md R75, R78). -/
def State.entry2 (s : State) (va : Word) : Word :=
  s.physRead (s.entry1 va + BitVec.ofNat 32 (4 * (va.toNat / 2 ^ 16 % 2 ^ 8))) 4

/-- The permission bit of a second-level entry for an access kind (spec/20_memory.md R73, R79). -/
def allowed (e : Word) : AccessKind → Bool
  | .read => e.getLsbD 30
  | .write => e.getLsbD 29
  | .execute => e.getLsbD 28

/-! ## Binary32 values -/

/-- Neither a NaN nor an infinity (spec/42_float.md R220). -/
abbrev FinitePattern (b : Word) : Prop := b.toNat / 2 ^ 23 % 2 ^ 8 ≠ 255

/-- A NaN (spec/42_float.md R220). -/
abbrev NaNPattern (b : Word) : Prop := b.toNat / 2 ^ 23 % 2 ^ 8 = 255 ∧ b.toNat % 2 ^ 23 ≠ 0

/-- An infinity of either sign (spec/42_float.md R220). -/
abbrev InfinitePattern (b : Word) : Prop := b.toNat / 2 ^ 23 % 2 ^ 8 = 255 ∧ b.toNat % 2 ^ 23 = 0

/-- A zero of either sign (spec/42_float.md R220). -/
abbrev ZeroPattern (b : Word) : Prop := b.toNat % 2 ^ 31 = 0

/-- The sign bit is set. -/
abbrev NegativePattern (b : Word) : Prop := 2 ^ 31 ≤ b.toNat

/-- The real number a finite pattern stands for (spec/42_float.md R220: bias 127, 23 fraction bits). -/
def realValue (b : Word) : ℚ :=
  (if b.toNat < 2 ^ 31 then 1 else -1) *
    (if b.toNat / 2 ^ 23 % 2 ^ 8 = 0 then ((b.toNat % 2 ^ 23 : ℕ) : ℚ) / 2 ^ 149
     else ((2 ^ 23 + b.toNat % 2 ^ 23 : ℕ) : ℚ) * 2 ^ (b.toNat / 2 ^ 23 % 2 ^ 8) / 2 ^ 150)

/-- The number a pattern that is not a NaN stands for, with the infinities below and above every finite one
(spec/42_float.md R225). -/
def orderValue (b : Word) : WithBot (WithTop ℚ) :=
  if b.toNat / 2 ^ 23 % 2 ^ 8 = 255 then (if b.toNat < 2 ^ 31 then ((⊤ : WithTop ℚ) : WithBot (WithTop ℚ)) else ⊥)
  else ((realValue b : WithTop ℚ) : WithBot (WithTop ℚ))

/-- `b` is finite, no finite pattern is nearer to `x`, and where one of another value is as near, `b` is the even one
(spec/42_float.md R221). -/
def NearestEven (x : ℚ) (b : Word) : Prop :=
  FinitePattern b ∧ ∀ c, FinitePattern c → |realValue b - x| < |realValue c - x| ∨
    (|realValue b - x| = |realValue c - x| ∧ (realValue b = realValue c ∨ b.toNat % 2 = 0))

/-- `b` is `x` rounded to nearest, ties to even: an infinity from the midpoint above the largest finite value on, and the
sign of a nonzero `x` is kept (spec/42_float.md R221, R223). -/
def RoundsTo (x : ℚ) (b : Word) : Prop :=
  (if 2 ^ 128 - 2 ^ 103 ≤ |x| then InfinitePattern b else NearestEven x b) ∧ (x < 0 → NegativePattern b) ∧
    (0 < x → ¬NegativePattern b)

end Sys2Proof.Machine
end

