-- ==== Sys2Proof/Certificates/Slice0/Obligations.lean ====
section
/-! DEFINITION. The statements for the provers, in the order of OBLIGATIONS.json. Each docstring names the rules of spec/
a statement formalises, or says what it is derived from. -/

open Sys2Proof Sys2Proof.Machine

/-! ## Encoding (spec/30_encoding.md) -/

/-- Derived from R101, R102, R103 and R110: every bit of every operand survives the encoding. -/
def Obligations.DecodeEncode : Prop := ∀ i : Instr, i.WellFormed → decode (encode i) = some i

/-- Derived from R104, R107 and R110: a word that decodes is the one word of its instruction, and the instruction is
well formed. -/
def Obligations.EncodeDecode : Prop := ∀ w i, decode w = some i → encode i = w ∧ i.WellFormed

/-- R109: a word decodes exactly when it matches a row of the opcode map, to an instruction of that row, and no word
matches two rows. -/
def Obligations.DecodesWhenRowMatches : Prop :=
  (∀ w, (∃ i, decode w = some i) ↔ ∃ j : Instr, w &&& (tableRow j).2 = (tableRow j).1) ∧
    (∀ w i, decode w = some i → w &&& (tableRow i).2 = (tableRow i).1) ∧
    ∀ w (i j : Instr), w &&& (tableRow i).2 = (tableRow i).1 → w &&& (tableRow j).2 = (tableRow j).1 →
      tableRow i = tableRow j

/-- R105 and R106: words with an unassigned major opcode, and branch words with a condition code of 19 or more, are
rejected, each under its own name; branch words with a code below 19 decode. -/
def Obligations.UnassignedWordsRejected : Prop :=
  (∀ w : Word, (opcodeField w).toNat = 0 ∨ (0x0A ≤ (opcodeField w).toNat ∧ (opcodeField w).toNat ≤ 0x0F) ∨
      (0x2A ≤ (opcodeField w).toNat ∧ (opcodeField w).toNat ≤ 0x2F) ∨
      (0x3C ≤ (opcodeField w).toNat ∧ (opcodeField w).toNat ≤ 0x3F) ∨
      (0x46 ≤ (opcodeField w).toNat ∧ (opcodeField w).toNat ≤ 0x4F) ∨ 0x5C ≤ (opcodeField w).toNat →
      decodeWord w = .error (.unassignedOpcode (opcodeField w)) ∧ decode w = none) ∧
    ∀ w : Word, (opcodeField w).toNat = 0x40 →
      (w.toNat / 2 ^ 19 % 2 ^ 5 < 19 → ∃ i, decode w = some i) ∧
        (19 ≤ w.toNat / 2 ^ 19 % 2 ^ 5 →
          decodeWord w = .error (.unassignedCondition (condField w)) ∧ decode w = none)

/-- R116: the encoding examples of the spec. -/
def Obligations.SpecEncodingExamples : Prop :=
  decode 0x10112000 = some (.add 1 1 2) ∧ decode 0x2022FFFF = some (.addi 2 2 (-1)) ∧
    decode 0x2920000A = some (.movi 2 10) ∧ decode 0x4017FFFE = some (.bne (-2)) ∧
    decode 0x354D0000 = some (.stw 4 13 0) ∧ decode 0x42000004 = some (.call 4) ∧ decode 0x02000000 = some .halt

/-! ## Integer instructions (spec/41_integer.md) -/

/-- R174, R175 and R190: ADD, SUB and ADDI; the carry of SUB is a borrow. -/
def Obligations.AddSubtractEffect : Prop :=
  (∀ (s : State) (xd xs1 xs2 : XReg),
      let a := s.getX xs1
      let b := s.getX xs2
      let sum := BitVec.ofNat 32 (a.toNat + b.toNat)
      let difference := BitVec.ofInt 32 ((a.toNat : Int) - b.toNat)
      EncodedR (.add xd xs1 xs2) 0x10 xd xs1 xs2 ∧
        CompletesInt (.add xd xs1 xs2) s xd sum (2 ^ 32 ≤ a.toNat + b.toNat)
          (a.getLsbD 31 = b.getLsbD 31 ∧ sum.getLsbD 31 ≠ a.getLsbD 31) ∧
        EncodedR (.sub xd xs1 xs2) 0x11 xd xs1 xs2 ∧
        CompletesInt (.sub xd xs1 xs2) s xd difference (a.toNat < b.toNat)
          (a.getLsbD 31 ≠ b.getLsbD 31 ∧ difference.getLsbD 31 ≠ a.getLsbD 31)) ∧
    ∀ (s : State) (xd xs : XReg) (imm : BitVec 16),
      let a := s.getX xs
      let b := BitVec.ofInt 32 imm.toInt
      let sum := BitVec.ofNat 32 (a.toNat + b.toNat)
      EncodedI (.addi xd xs imm) 0x20 xd xs imm.toNat ∧
        CompletesInt (.addi xd xs imm) s xd sum (2 ^ 32 ≤ a.toNat + b.toNat)
          (a.getLsbD 31 = b.getLsbD 31 ∧ sum.getLsbD 31 ≠ a.getLsbD 31)

/-- Derived from R187, R197 and the subtract row of R172: CMP and CMPI change flags and the pc only. -/
def Obligations.CompareEffect : Prop :=
  (∀ (s : State) (xs1 xs2 : XReg),
      let a := s.getX xs1
      let b := s.getX xs2
      let r := BitVec.ofInt 32 ((a.toNat : Int) - b.toNat)
      EncodedR (.cmp xs1 xs2) 0x1D 0 xs1 xs2 ∧
        CompletesCompare (.cmp xs1 xs2) s r (a.toNat < b.toNat)
          (a.getLsbD 31 ≠ b.getLsbD 31 ∧ r.getLsbD 31 ≠ a.getLsbD 31)) ∧
    ∀ (s : State) (xs : XReg) (imm : BitVec 16),
      let a := s.getX xs
      let b := BitVec.ofInt 32 imm.toInt
      let r := BitVec.ofInt 32 ((a.toNat : Int) - b.toNat)
      EncodedI (.cmpi xs imm) 0x27 0 xs imm.toNat ∧
        CompletesCompare (.cmpi xs imm) s r (a.toNat < b.toNat)
          (a.getLsbD 31 ≠ b.getLsbD 31 ∧ r.getLsbD 31 ≠ a.getLsbD 31)

/-- Derived from R187, 43_control.md R261 to R276 and 41_integer.md R172: after `cmp a, b` the branch conditions order
`a` and `b`, the signed ones as signed and the others as unsigned. -/
def Obligations.ConditionsAfterCompare : Prop :=
  ∀ (s t : State) (xs1 xs2 : XReg), exec (.cmp xs1 xs2) s = .next t →
    let a := s.getX xs1
    let b := s.getX xs2
    (condHolds t.flagSet .eq = true ↔ a = b) ∧ (condHolds t.flagSet .ne = true ↔ a ≠ b) ∧
      (condHolds t.flagSet .cs = true ↔ a.toNat < b.toNat) ∧ (condHolds t.flagSet .cc = true ↔ b.toNat ≤ a.toNat) ∧
      (condHolds t.flagSet .hi = true ↔ b.toNat < a.toNat) ∧ (condHolds t.flagSet .ls = true ↔ a.toNat ≤ b.toNat) ∧
      (condHolds t.flagSet .lt = true ↔ a.toInt < b.toInt) ∧ (condHolds t.flagSet .ge = true ↔ b.toInt ≤ a.toInt) ∧
      (condHolds t.flagSet .gt = true ↔ b.toInt < a.toInt) ∧ (condHolds t.flagSet .le = true ↔ a.toInt ≤ b.toInt)

/-- Derived from R171 and the add and subtract rows of R172: V after ADD, ADDI and SUB is signed overflow, and the result
read as signed is the exact one when V is clear. -/
def Obligations.OverflowIsSigned : Prop :=
  (∀ (s t : State) (xd xs1 xs2 : XReg), exec (.add xd xs1 xs2) s = .next t →
      let n := (s.getX xs1).toInt + (s.getX xs2).toInt
      (t.flagSet.v = true ↔ n < -2 ^ 31 ∨ 2 ^ 31 ≤ n) ∧ (t.flagSet.v = false → (t.getX xd).toInt = n)) ∧
    (∀ (s t : State) (xd xs : XReg) (imm : BitVec 16), exec (.addi xd xs imm) s = .next t →
      let n := (s.getX xs).toInt + imm.toInt
      (t.flagSet.v = true ↔ n < -2 ^ 31 ∨ 2 ^ 31 ≤ n) ∧ (t.flagSet.v = false → (t.getX xd).toInt = n)) ∧
    ∀ (s t : State) (xd xs1 xs2 : XReg), exec (.sub xd xs1 xs2) s = .next t →
      let n := (s.getX xs1).toInt - (s.getX xs2).toInt
      (t.flagSet.v = true ↔ n < -2 ^ 31 ∨ 2 ^ 31 ≤ n) ∧ (t.flagSet.v = false → (t.getX xd).toInt = n)

/-- R176: MUL. -/
def Obligations.MulEffect : Prop :=
  ∀ (s : State) (xd xs1 xs2 : XReg),
    let a := s.getX xs1
    let b := s.getX xs2
    EncodedR (.mul xd xs1 xs2) 0x12 xd xs1 xs2 ∧
      CompletesInt (.mul xd xs1 xs2) s xd (BitVec.ofNat 32 (a.toNat * b.toNat)) (2 ^ 32 ≤ a.toNat * b.toNat)
        (a.toInt * b.toInt < -2 ^ 31 ∨ 2 ^ 31 ≤ a.toInt * b.toInt)

/-- R177 and R179: DIVU and REMU, at a zero divisor and at every other. -/
def Obligations.UnsignedDivisionEffect : Prop :=
  ∀ (s : State) (xd xs1 xs2 : XReg),
    let a := s.getX xs1
    let b := s.getX xs2
    EncodedR (.divu xd xs1 xs2) 0x13 xd xs1 xs2 ∧ EncodedR (.remu xd xs1 xs2) 0x15 xd xs1 xs2 ∧
      (b = 0#32 → CompletesInt (.divu xd xs1 xs2) s xd 0xFFFFFFFF#32 False True ∧
        CompletesInt (.remu xd xs1 xs2) s xd a False True) ∧
      (b ≠ 0#32 → CompletesInt (.divu xd xs1 xs2) s xd (BitVec.ofNat 32 (a.toNat / b.toNat)) False False ∧
        CompletesInt (.remu xd xs1 xs2) s xd (BitVec.ofNat 32 (a.toNat % b.toNat)) False False)

/-- R178 and R180: DIVS and REMS, at a zero divisor, at the one overflow, and at every other pair. -/
def Obligations.SignedDivisionEffect : Prop :=
  ∀ (s : State) (xd xs1 xs2 : XReg),
    let a := s.getX xs1
    let b := s.getX xs2
    EncodedR (.divs xd xs1 xs2) 0x14 xd xs1 xs2 ∧ EncodedR (.rems xd xs1 xs2) 0x16 xd xs1 xs2 ∧
      (b = 0#32 → CompletesInt (.divs xd xs1 xs2) s xd 0xFFFFFFFF#32 False True ∧
        CompletesInt (.rems xd xs1 xs2) s xd a False True) ∧
      (a = 0x80000000#32 → b = 0xFFFFFFFF#32 → CompletesInt (.divs xd xs1 xs2) s xd 0x80000000#32 False True ∧
        CompletesInt (.rems xd xs1 xs2) s xd 0#32 False True) ∧
      (b ≠ 0#32 → ¬(a = 0x80000000#32 ∧ b = 0xFFFFFFFF#32) →
        CompletesInt (.divs xd xs1 xs2) s xd (BitVec.ofInt 32 (a.toInt.tdiv b.toInt)) False False ∧
          CompletesInt (.rems xd xs1 xs2) s xd (BitVec.ofInt 32 (a.toInt.tmod b.toInt)) False False)

/-- Derived from R200: outside a zero divisor and the one overflow, the signed quotient and remainder satisfy
`a = q*b + r` with `|r| < |b|` and the sign of `a`. -/
def Obligations.DivisionLaw : Prop :=
  ∀ (s t u : State) (xd xs1 xs2 : XReg), exec (.divs xd xs1 xs2) s = .next t → exec (.rems xd xs1 xs2) s = .next u →
    let a := (s.getX xs1).toInt
    let b := (s.getX xs2).toInt
    let q := (t.getX xd).toInt
    let r := (u.getX xd).toInt
    b ≠ 0 → ¬(a = -2 ^ 31 ∧ b = -1) → a = q * b + r ∧ r.natAbs < b.natAbs ∧ (r = 0 ∨ (0 < r ∧ 0 < a) ∨ (r < 0 ∧ a < 0))

/-- R181, R182, R183, R191, R192 and R193: the bitwise instructions; their immediates are zero-extended. -/
def Obligations.LogicEffect : Prop :=
  (∀ (s : State) (xd xs1 xs2 : XReg),
      let a := s.getX xs1
      let b := s.getX xs2
      EncodedR (.and xd xs1 xs2) 0x17 xd xs1 xs2 ∧ CompletesInt (.and xd xs1 xs2) s xd (a &&& b) False False ∧
        EncodedR (.or xd xs1 xs2) 0x18 xd xs1 xs2 ∧ CompletesInt (.or xd xs1 xs2) s xd (a ||| b) False False ∧
        EncodedR (.xor xd xs1 xs2) 0x19 xd xs1 xs2 ∧ CompletesInt (.xor xd xs1 xs2) s xd (a ^^^ b) False False) ∧
    ∀ (s : State) (xd xs : XReg) (imm : BitVec 16),
      let a := s.getX xs
      let b := BitVec.ofNat 32 imm.toNat
      EncodedI (.andi xd xs imm) 0x21 xd xs imm.toNat ∧ CompletesInt (.andi xd xs imm) s xd (a &&& b) False False ∧
        EncodedI (.ori xd xs imm) 0x22 xd xs imm.toNat ∧ CompletesInt (.ori xd xs imm) s xd (a ||| b) False False ∧
        EncodedI (.xori xd xs imm) 0x23 xd xs imm.toNat ∧ CompletesInt (.xori xd xs imm) s xd (a ^^^ b) False False

/-- R184, R185 and R186: the register shifts; the amount is the register modulo 32, and C is the last bit shifted out. -/
def Obligations.ShiftEffect : Prop :=
  ∀ (s : State) (xd xs1 xs2 : XReg),
    let a := s.getX xs1
    let n := (s.getX xs2).toNat % 32
    EncodedR (.shl xd xs1 xs2) 0x1A xd xs1 xs2 ∧ EncodedR (.shr xd xs1 xs2) 0x1B xd xs1 xs2 ∧
      EncodedR (.sar xd xs1 xs2) 0x1C xd xs1 xs2 ∧
      CompletesInt (.shl xd xs1 xs2) s xd (BitVec.ofNat 32 (a.toNat * 2 ^ n))
        (n ≠ 0 ∧ a.toNat / 2 ^ (32 - n) % 2 = 1) False ∧
      CompletesInt (.shr xd xs1 xs2) s xd (BitVec.ofNat 32 (a.toNat / 2 ^ n))
        (n ≠ 0 ∧ a.toNat / 2 ^ (n - 1) % 2 = 1) False ∧
      CompletesInt (.sar xd xs1 xs2) s xd (BitVec.ofInt 32 (a.toInt / 2 ^ n))
        (n ≠ 0 ∧ a.toNat / 2 ^ (n - 1) % 2 = 1) False

/-- R194, R195 and R196: the immediate shifts, and that a word with a nonzero bit in 15:5 of the field does not decode. -/
def Obligations.ShiftImmediateEffect : Prop :=
  (∀ (s : State) (xd xs : XReg) (amount : BitVec 5),
      let a := s.getX xs
      let n := amount.toNat
      let imm := amount.setWidth 16
      EncodedI (.shli xd xs imm) 0x24 xd xs n ∧ EncodedI (.shri xd xs imm) 0x25 xd xs n ∧
        EncodedI (.sari xd xs imm) 0x26 xd xs n ∧
        CompletesInt (.shli xd xs imm) s xd (BitVec.ofNat 32 (a.toNat * 2 ^ n))
          (n ≠ 0 ∧ a.toNat / 2 ^ (32 - n) % 2 = 1) False ∧
        CompletesInt (.shri xd xs imm) s xd (BitVec.ofNat 32 (a.toNat / 2 ^ n))
          (n ≠ 0 ∧ a.toNat / 2 ^ (n - 1) % 2 = 1) False ∧
        CompletesInt (.sari xd xs imm) s xd (BitVec.ofInt 32 (a.toInt / 2 ^ n))
          (n ≠ 0 ∧ a.toNat / 2 ^ (n - 1) % 2 = 1) False) ∧
    ∀ w : Word, 0x24 ≤ w.toNat / 2 ^ 24 → w.toNat / 2 ^ 24 ≤ 0x26 → 32 ≤ w.toNat % 2 ^ 16 → decode w = none

/-- R188, R189, R198 and R199: MOV, NOT, LUI and MOVI. -/
def Obligations.MoveEffect : Prop :=
  ∀ (s : State) (xd xs : XReg) (imm : BitVec 16),
    EncodedR (.mov xd xs) 0x1E xd xs 0 ∧ CompletesInt (.mov xd xs) s xd (s.getX xs) False False ∧
      EncodedR (.not xd xs) 0x1F xd xs 0 ∧
      CompletesInt (.not xd xs) s xd (BitVec.ofNat 32 (2 ^ 32 - 1 - (s.getX xs).toNat)) False False ∧
      EncodedI (.lui xd imm) 0x28 xd 0 imm.toNat ∧
      CompletesInt (.lui xd imm) s xd (BitVec.ofNat 32 (imm.toNat * 2 ^ 16)) False False ∧
      EncodedI (.movi xd imm) 0x29 xd 0 imm.toNat ∧
      CompletesInt (.movi xd imm) s xd (BitVec.ofInt 32 imm.toInt) False False

/-! ## Floating-point instructions (spec/42_float.md) -/

/-- R226: FADD. The result is the exact sum rounded to nearest, ties to even; a NaN operand or infinities of opposite
signs give the canonical NaN; a zero sum is -0 only when both operands are negative. -/
def Obligations.FaddEffect : Prop :=
  ∀ (s : State) (fd fs1 fs2 : FReg),
    let a := s.getF fs1
    let b := s.getF fs2
    EncodedR (.fadd fd fs1 fs2) 0x50 fd fs1 fs2 ∧ ∃ r, CompletesFloat (.fadd fd fs1 fs2) s fd r ∧
      (NaNPattern a ∨ NaNPattern b → r = 0x7FC00000#32) ∧
      (InfinitePattern a → InfinitePattern b → r = if a = b then a else 0x7FC00000#32) ∧
      (InfinitePattern a → FinitePattern b → r = a) ∧ (FinitePattern a → InfinitePattern b → r = b) ∧
      (FinitePattern a → FinitePattern b → RoundsTo (realValue a + realValue b) r ∧
        (realValue a + realValue b = 0 →
          (NegativePattern a ∧ NegativePattern b → r = 0x80000000#32) ∧
            (¬(NegativePattern a ∧ NegativePattern b) → r = 0#32)))

/-- R227: FSUB, as FADD of the exact difference. -/
def Obligations.FsubEffect : Prop :=
  ∀ (s : State) (fd fs1 fs2 : FReg),
    let a := s.getF fs1
    let b := s.getF fs2
    EncodedR (.fsub fd fs1 fs2) 0x51 fd fs1 fs2 ∧ ∃ r, CompletesFloat (.fsub fd fs1 fs2) s fd r ∧
      (NaNPattern a ∨ NaNPattern b → r = 0x7FC00000#32) ∧
      (InfinitePattern a → InfinitePattern b → r = if a = b then 0x7FC00000#32 else a) ∧
      (InfinitePattern a → FinitePattern b → r = a) ∧
      (FinitePattern a → InfinitePattern b → r = b ^^^ 0x80000000#32) ∧
      (FinitePattern a → FinitePattern b → RoundsTo (realValue a - realValue b) r ∧
        (realValue a - realValue b = 0 →
          (NegativePattern a ∧ ¬NegativePattern b → r = 0x80000000#32) ∧
            (¬(NegativePattern a ∧ ¬NegativePattern b) → r = 0#32)))

/-- R228: FMUL. The sign of a product that is not a NaN is the exclusive or of the operand signs. -/
def Obligations.FmulEffect : Prop :=
  ∀ (s : State) (fd fs1 fs2 : FReg),
    let a := s.getF fs1
    let b := s.getF fs2
    EncodedR (.fmul fd fs1 fs2) 0x52 fd fs1 fs2 ∧ ∃ r, CompletesFloat (.fmul fd fs1 fs2) s fd r ∧
      (NaNPattern a ∨ NaNPattern b → r = 0x7FC00000#32) ∧
      (InfinitePattern a ∧ ZeroPattern b ∨ ZeroPattern a ∧ InfinitePattern b → r = 0x7FC00000#32) ∧
      (InfinitePattern a ∧ ¬NaNPattern b ∧ ¬ZeroPattern b ∨ InfinitePattern b ∧ ¬NaNPattern a ∧ ¬ZeroPattern a →
        InfinitePattern r ∧ (NegativePattern r ↔ ¬(NegativePattern a ↔ NegativePattern b))) ∧
      (FinitePattern a → FinitePattern b → RoundsTo (realValue a * realValue b) r ∧
        (NegativePattern r ↔ ¬(NegativePattern a ↔ NegativePattern b)))

/-- R229: FDIV. A nonzero finite value divided by a zero is an infinity; the sign is the exclusive or. -/
def Obligations.FdivEffect : Prop :=
  ∀ (s : State) (fd fs1 fs2 : FReg),
    let a := s.getF fs1
    let b := s.getF fs2
    EncodedR (.fdiv fd fs1 fs2) 0x53 fd fs1 fs2 ∧ ∃ r, CompletesFloat (.fdiv fd fs1 fs2) s fd r ∧
      (NaNPattern a ∨ NaNPattern b → r = 0x7FC00000#32) ∧
      (InfinitePattern a ∧ InfinitePattern b ∨ ZeroPattern a ∧ ZeroPattern b → r = 0x7FC00000#32) ∧
      (InfinitePattern a ∧ FinitePattern b ∨ FinitePattern a ∧ ¬ZeroPattern a ∧ ZeroPattern b →
        InfinitePattern r ∧ (NegativePattern r ↔ ¬(NegativePattern a ↔ NegativePattern b))) ∧
      (FinitePattern a ∧ InfinitePattern b →
        ZeroPattern r ∧ (NegativePattern r ↔ ¬(NegativePattern a ↔ NegativePattern b))) ∧
      (FinitePattern a → FinitePattern b → ¬ZeroPattern b → RoundsTo (realValue a / realValue b) r ∧
        (NegativePattern r ↔ ¬(NegativePattern a ↔ NegativePattern b)))

/-- R230, R233 and R234: FMOV, MOVXF and MOVFX copy the bits, NaNs included; the first two update the float flags, the
last the integer flags. -/
def Obligations.FloatMoveEffect : Prop :=
  ∀ (s : State) (fd fs : FReg) (xd xs : XReg),
    EncodedR (.fmov fd fs) 0x54 fd fs 0 ∧ CompletesFloat (.fmov fd fs) s fd (s.getF fs) ∧
      EncodedR (.movxf fd xs) 0x57 fd xs 0 ∧ CompletesFloat (.movxf fd xs) s fd (s.getX xs) ∧
      EncodedR (.movfx xd fs) 0x58 xd fs 0 ∧ CompletesInt (.movfx xd fs) s xd (s.getF fs) False False

/-- R231: ITOF rounds the signed integer; zero gives +0. -/
def Obligations.ItofEffect : Prop :=
  ∀ (s : State) (fd : FReg) (xs : XReg),
    EncodedR (.itof fd xs) 0x55 fd xs 0 ∧ ∃ r, CompletesFloat (.itof fd xs) s fd r ∧ FinitePattern r ∧
      RoundsTo (s.getX xs).toInt r ∧ (s.getX xs = 0#32 → r = 0#32)

/-- R232: FTOI truncates toward zero, saturates outside the signed range, and gives 0 for a NaN; V marks the last two. -/
def Obligations.FtoiEffect : Prop :=
  ∀ (s : State) (xd : XReg) (fs : FReg),
    let b := s.getF fs
    let x := realValue b
    EncodedR (.ftoi xd fs) 0x56 xd fs 0 ∧
      (NaNPattern b → CompletesInt (.ftoi xd fs) s xd 0#32 False True) ∧
      (InfinitePattern b ∧ ¬NegativePattern b ∨ FinitePattern b ∧ 2 ^ 31 ≤ x →
        CompletesInt (.ftoi xd fs) s xd 0x7FFFFFFF#32 False True) ∧
      (InfinitePattern b ∧ NegativePattern b ∨ FinitePattern b ∧ x < -2 ^ 31 →
        CompletesInt (.ftoi xd fs) s xd 0x80000000#32 False True) ∧
      (FinitePattern b → -2 ^ 31 ≤ x → x < 2 ^ 31 →
        CompletesInt (.ftoi xd fs) s xd (BitVec.ofInt 32 (if 0 ≤ x then ⌊x⌋ else ⌈x⌉)) False False)

/-- R235, R236 and R237 under R225: the comparisons order the operands as real numbers with the infinities at the ends,
and are false when an operand is a NaN. -/
def Obligations.FloatCompareEffect : Prop :=
  ∀ (s : State) (xd : XReg) (fs1 fs2 : FReg),
    let a := s.getF fs1
    let b := s.getF fs2
    let ordered := ¬NaNPattern a ∧ ¬NaNPattern b
    let answers (i : Instr) (holds : Prop) : Prop :=
      (holds → CompletesInt i s xd 1#32 False False) ∧ (¬holds → CompletesInt i s xd 0#32 False False)
    EncodedR (.feq xd fs1 fs2) 0x59 xd fs1 fs2 ∧ EncodedR (.flt xd fs1 fs2) 0x5A xd fs1 fs2 ∧
      EncodedR (.fle xd fs1 fs2) 0x5B xd fs1 fs2 ∧
      answers (.feq xd fs1 fs2) (ordered ∧ orderValue a = orderValue b) ∧
      answers (.flt xd fs1 fs2) (ordered ∧ orderValue a < orderValue b) ∧
      answers (.fle xd fs1 fs2) (ordered ∧ orderValue a ≤ orderValue b)

/-! ## Control transfers (spec/43_control.md) -/

/-- R262 to R272: the branches on Z, C, N and V one at a time, and the unsigned ones. -/
def Obligations.UnsignedBranchEffect : Prop :=
  ∀ (s : State) (imm : BitVec 19),
    let g := s.flagSet
    (EncodedB (.bal imm) 0 imm ∧ BranchesIf (.bal imm) imm s True) ∧
      (EncodedB (.beq imm) 1 imm ∧ BranchesIf (.beq imm) imm s (g.z = true)) ∧
      (EncodedB (.bne imm) 2 imm ∧ BranchesIf (.bne imm) imm s (g.z = false)) ∧
      (EncodedB (.bcs imm) 3 imm ∧ BranchesIf (.bcs imm) imm s (g.c = true)) ∧
      (EncodedB (.bcc imm) 4 imm ∧ BranchesIf (.bcc imm) imm s (g.c = false)) ∧
      (EncodedB (.bmi imm) 5 imm ∧ BranchesIf (.bmi imm) imm s (g.n = true)) ∧
      (EncodedB (.bpl imm) 6 imm ∧ BranchesIf (.bpl imm) imm s (g.n = false)) ∧
      (EncodedB (.bvs imm) 7 imm ∧ BranchesIf (.bvs imm) imm s (g.v = true)) ∧
      (EncodedB (.bvc imm) 8 imm ∧ BranchesIf (.bvc imm) imm s (g.v = false)) ∧
      (EncodedB (.bhi imm) 9 imm ∧ BranchesIf (.bhi imm) imm s (g.c = false ∧ g.z = false)) ∧
      EncodedB (.bls imm) 10 imm ∧ BranchesIf (.bls imm) imm s (g.c = true ∨ g.z = true)

/-- R273 to R280: the signed branches, and those on P, A and F. -/
def Obligations.SignedBranchEffect : Prop :=
  ∀ (s : State) (imm : BitVec 19),
    let g := s.flagSet
    (EncodedB (.bge imm) 11 imm ∧ BranchesIf (.bge imm) imm s (g.n = g.v)) ∧
      (EncodedB (.blt imm) 12 imm ∧ BranchesIf (.blt imm) imm s (g.n ≠ g.v)) ∧
      (EncodedB (.bgt imm) 13 imm ∧ BranchesIf (.bgt imm) imm s (g.z = false ∧ g.n = g.v)) ∧
      (EncodedB (.ble imm) 14 imm ∧ BranchesIf (.ble imm) imm s (g.z = true ∨ g.n ≠ g.v)) ∧
      (EncodedB (.bod imm) 15 imm ∧ BranchesIf (.bod imm) imm s (g.p = true)) ∧
      (EncodedB (.bev imm) 16 imm ∧ BranchesIf (.bev imm) imm s (g.p = false)) ∧
      (EncodedB (.bnan imm) 17 imm ∧ BranchesIf (.bnan imm) imm s (g.a = true)) ∧
      EncodedB (.binf imm) 18 imm ∧ BranchesIf (.binf imm) imm s (g.f = true)

/-- R281 and R283: JMP and JMPR set the pc and nothing else. -/
def Obligations.JumpEffect : Prop :=
  ∀ (s : State) (imm : BitVec 24) (xs : XReg),
    EncodedJ (.jmp imm) 0x41 imm ∧ CompletesJump (.jmp imm) s (BitVec.ofInt 32 ((s.getX 13).toNat + 4 * imm.toInt)) ∧
      EncodedR (.jmpr xs) 0x43 0 xs 0 ∧ CompletesJump (.jmpr xs) s (s.getX xs)

/-- R282, R284 and R285: CALL and CALLR push pc + 4 below x15 and jump, and CALLR's target is read before x15 changes;
RET jumps to the word x15 points at and raises x15 by 4. A failing access takes its trap, with nothing committed. -/
def Obligations.CallReturnEffect : Prop :=
  ∀ (s : State) (imm : BitVec 24) (xs : XReg),
    let slot := s.getX 15 - 4#32
    let ra := s.getX 13 + 4#32
    EncodedJ (.call imm) 0x42 imm ∧ EncodedR (.callr xs) 0x44 0 xs 0 ∧ EncodedR .ret 0x45 0 0 0 ∧
      StoresTo (.call imm) s slot 4 (fun pas =>
        CompletesStore (.call imm) s pas ra slot (BitVec.ofInt 32 ((s.getX 13).toNat + 4 * imm.toInt))) ∧
      StoresTo (.callr xs) s slot 4 (fun pas => CompletesStore (.callr xs) s pas ra slot (s.getX xs)) ∧
      LoadsFrom .ret s (s.getX 15) 4 fun pas =>
        ∃ t, exec .ret s = .next t ∧ (t.getX 13).toNat = byteSum (s.bytesAt pas) ∧ t.getX 15 = s.getX 15 + 4#32 ∧
          SameXBut [13, 15] s t ∧ SameF s t ∧ t.flags = s.flags ∧ SameCore s t ∧ t.memmap = s.memmap ∧ SameMemory s t

/-! ## Loads, stores and the stack (spec/45_memory_access.md) -/

/-- R331 to R335 and R339: the loads, with their widths and extensions; FLD leaves the bits unchanged. -/
def Obligations.LoadEffect : Prop :=
  ∀ (s : State) (xt xs : XReg) (ft : FReg) (imm : BitVec 16),
    let ea := addressOf s xs imm
    let value (pas : List Word) : Nat := byteSum (s.bytesAt pas)
    (EncodedI (.ldw xt xs imm) 0x30 xt xs imm.toNat ∧ LoadsFrom (.ldw xt xs imm) s ea 4 fun pas =>
        CompletesX (.ldw xt xs imm) s xt (BitVec.ofNat 32 (value pas))) ∧
      (EncodedI (.ldh xt xs imm) 0x31 xt xs imm.toNat ∧ LoadsFrom (.ldh xt xs imm) s ea 2 fun pas =>
        CompletesX (.ldh xt xs imm) s xt (BitVec.ofNat 32 (value pas))) ∧
      (EncodedI (.ldhs xt xs imm) 0x32 xt xs imm.toNat ∧ LoadsFrom (.ldhs xt xs imm) s ea 2 fun pas =>
        CompletesX (.ldhs xt xs imm) s xt
          (BitVec.ofInt 32 (if value pas < 2 ^ 15 then value pas else value pas - 2 ^ 16))) ∧
      (EncodedI (.ldb xt xs imm) 0x33 xt xs imm.toNat ∧ LoadsFrom (.ldb xt xs imm) s ea 1 fun pas =>
        CompletesX (.ldb xt xs imm) s xt (BitVec.ofNat 32 (value pas))) ∧
      (EncodedI (.ldbs xt xs imm) 0x34 xt xs imm.toNat ∧ LoadsFrom (.ldbs xt xs imm) s ea 1 fun pas =>
        CompletesX (.ldbs xt xs imm) s xt
          (BitVec.ofInt 32 (if value pas < 2 ^ 7 then value pas else value pas - 2 ^ 8))) ∧
      EncodedI (.fld ft xs imm) 0x38 ft xs imm.toNat ∧ LoadsFrom (.fld ft xs imm) s ea 4 fun pas =>
        ∃ t, exec (.fld ft xs imm) s = .next t ∧ WritesF s t ft (BitVec.ofNat 32 (value pas)) ∧ t.flags = s.flags ∧
          SameCore s t ∧ t.memmap = s.memmap ∧ SameMemory s t

/-- R336, R337, R338 and R340: the stores, each at the physical addresses its own effective address translates to. -/
def Obligations.StoreEffect : Prop :=
  ∀ (s : State) (xt xs : XReg) (ft : FReg) (imm : BitVec 16),
    let ea := addressOf s xs imm
    let moved := s.getX 13 + 4#32
    (EncodedI (.stw xt xs imm) 0x35 xt xs imm.toNat ∧ StoresTo (.stw xt xs imm) s ea 4 fun pas =>
        CompletesStore (.stw xt xs imm) s pas (s.getX xt) (s.getX 15) moved) ∧
      (EncodedI (.sth xt xs imm) 0x36 xt xs imm.toNat ∧ StoresTo (.sth xt xs imm) s ea 2 fun pas =>
        CompletesStore (.sth xt xs imm) s pas (s.getX xt) (s.getX 15) moved) ∧
      (EncodedI (.stb xt xs imm) 0x37 xt xs imm.toNat ∧ StoresTo (.stb xt xs imm) s ea 1 fun pas =>
        CompletesStore (.stb xt xs imm) s pas (s.getX xt) (s.getX 15) moved) ∧
      EncodedI (.fst ft xs imm) 0x39 ft xs imm.toNat ∧ StoresTo (.fst ft xs imm) s ea 4 fun pas =>
        CompletesStore (.fst ft xs imm) s pas (s.getF ft) (s.getX 15) moved

/-- R341 and R342: PUSH stores the register as it was before x15 changes; POP writes x15 first and the destination
second, so the popped value wins in x15, and in x13 it is a jump. -/
def Obligations.StackEffect : Prop :=
  ∀ (s : State) (xs xd : XReg),
    let slot := s.getX 15 - 4#32
    (EncodedR (.push xs) 0x3A 0 xs 0 ∧ StoresTo (.push xs) s slot 4 fun pas =>
        CompletesStore (.push xs) s pas (s.getX xs) slot (s.getX 13 + 4#32)) ∧
      EncodedR (.pop xd) 0x3B xd 0 0 ∧ LoadsFrom (.pop xd) s (s.getX 15) 4 fun pas =>
        ∃ t, exec (.pop xd) s = .next t ∧ (t.getX xd).toNat = byteSum (s.bytesAt pas) ∧
          (xd ≠ 15 → t.getX 15 = s.getX 15 + 4#32) ∧ (xd ≠ 13 → t.getX 13 = s.getX 13 + 4#32) ∧
          SameXBut [xd, 13, 15] s t ∧ SameF s t ∧ t.flags = s.flags ∧ SameCore s t ∧ t.memmap = s.memmap ∧
          SameMemory s t

/-- Derived from R341, R342 and R343: with translation off, a POP after a PUSH gives the pushed value back, and x15
returns to where it was unless it is the destination. -/
def Obligations.PushThenPop : Prop :=
  ∀ (s t u : State) (xs xd : XReg), s.flagSet.m = false → exec (.push xs) s = .next t → exec (.pop xd) t = .next u →
    u.getX xd = s.getX xs ∧ (xd ≠ 15 → u.getX 15 = s.getX 15)

/-! ## System instructions (spec/44_privileged.md) -/

/-- Derived from R301, R303 and R305: NOP, RDFL and RDMK complete in both rings and change no flag; where the reserved
bits of flags are zero, as in every state a program can reach, RDFL reads them as zero. -/
def Obligations.UnprivilegedSystemEffect : Prop :=
  ∀ (s : State) (xd : XReg), CompletesJump .nop s (s.getX 13 + 4#32) ∧ CompletesX (.rdfl xd) s xd s.flags ∧
    (s.ReservedZero → s.flags.toNat < 2 ^ 20) ∧ CompletesX (.rdmk xd) s xd (BitVec.ofNat 32 (s.flags.toNat % 2 ^ 8)) ∧
    EncodedR .nop 0x01 0 0 0 ∧ EncodedR (.rdfl xd) 0x04 xd 0 0 ∧ EncodedR (.rdmk xd) 0x06 xd 0 0

/-- R302, R304, R306, R307 and R308, their System ring half: HALT halts the core at its own address and changes nothing
else; WRFL drops the reserved bits; WRMK changes MASK alone, in a state whose reserved bits are zero; RDMM and WRMM read
and write memmap. -/
def Obligations.PrivilegedSystemEffect : Prop :=
  ∀ (s : State) (xd xs : XReg), s.flagSet.r = false →
    (∃ t, exec .halt s = .next t ∧ t.halted = .haltExecuted (s.getX 13) ∧ SameXBut [] s t ∧ SameF s t ∧
        t.flags = s.flags ∧ t.memmap = s.memmap ∧ t.pending = s.pending ∧ t.raises = s.raises ∧ SameMemory s t) ∧
      CompletesSystem (.wrfl xs) s (s.getX xs &&& 0x000FFFFF#32) s.memmap ∧
      (s.ReservedZero →
        CompletesSystem (.wrmk xs) s (s.flags &&& 0xFFFFFF00#32 ||| (s.getX xs &&& 0xFF#32)) s.memmap) ∧
      CompletesX (.rdmm xd) s xd s.memmap ∧ CompletesSystem (.wrmm xs) s s.flags (s.getX xs) ∧
      EncodedR .halt 0x02 0 0 0 ∧ EncodedR (.wrfl xs) 0x05 0 xs 0 ∧ EncodedR (.wrmk xs) 0x07 0 xs 0 ∧
      EncodedR (.rdmm xd) 0x08 xd 0 0 ∧ EncodedR (.wrmm xs) 0x09 0 xs 0

/-- Derived from R309: in the System ring IRET restores the pc and flags from the save area, read physically, and
changes nothing else. -/
def Obligations.IretEffect : Prop :=
  ∀ s : State, s.flagSet.r = false → ∃ t, exec .iret s = .next t ∧ (t.getX 13).toNat = s.wordAt 0x40 ∧
    t.flags.toNat = s.wordAt 0x44 % 2 ^ 20 ∧ SameXBut [13] s t ∧ SameF s t ∧ t.memmap = s.memmap ∧ SameCore s t ∧
    SameMemory s t

/-- R300 and 60_exceptions.md R364: the six privileged instructions, and only they, take PrivilegeFault in the User
ring, with the fetched word as info and their own address as the return address. It holds for any decoder and raise
(30_encoding.md R117), and so for `step`. -/
def Obligations.PrivilegeFaultInUserRing : Prop :=
  (∀ i : Instr, requiresSystemRing i = true ↔ i = .halt ∨ i = .iret ∨ (∃ xs, i = .wrfl xs) ∨ (∃ xs, i = .wrmk xs) ∨
      (∃ xd, i = .rdmm xd) ∨ ∃ xs, i = .wrmm xs) ∧
    (∀ (decoder : Word → Option Instr) (raise : Option Line) (s : State) (w : Word) (i : Instr), s.Running →
      (s.latch raise).fetch = .ok w → decoder w = some i → requiresSystemRing i = true → s.flagSet.r = true →
      ∃ t, cycle decoder raise s = .next t ∧ TrapTaken (s.latch raise) t 10 0 (s.getX 13) w) ∧
    ∀ (s : State) (w : Word) (i : Instr), s.Running → s.begun.fetch = .ok w → decode w = some i →
      requiresSystemRing i = true → s.flagSet.r = true →
      ∃ t, step s = .next t ∧ TrapTaken s.begun t 10 0 (s.getX 13) w

/-! ## The engine (spec/40_engine.md) -/

/-- Derived from R140, R142, R143, R148 and R157. The state a step begins with, `s.begun`, is `s` with the raise at the
head of `raises` latched, if there is one, and that entry taken off; that the raise comes from this list is the model's
choice (log entry 5). Where the bytes at the pc, read there with kind Execute, decode to an instruction, the step runs
that instruction on that state and then the checkpoint. The last clause says the same of the cycle with any decoder and
raise (30_encoding.md R117). -/
def Obligations.StepRunsDecoded : Prop :=
  (∀ s : State,
      (∀ k, k < 8 → (s.begun.pending.getLsbD k = true ↔
        s.pending.getLsbD k = true ∨ ∃ l : Line, s.raises.head? = some (some l) ∧ l.val = k)) ∧
      s.begun.raises = s.raises.tail ∧ SameXBut [] s s.begun ∧ SameF s s.begun ∧ s.begun.flags = s.flags ∧
      s.begun.memmap = s.memmap ∧ s.begun.halted = s.halted ∧ s.begun.mem = s.mem) ∧
    (∀ (s t : State) (w : Word) (i : Instr), s.Running → s.begun.fetch = .ok w → decode w = some i →
      exec i s.begun = .next t → step s = .next t.checkpoint) ∧
    ∀ (decoder : Word → Option Instr) (raise : Option Line) (s t : State) (w : Word) (i : Instr), s.Running →
      (s.latch raise).fetch = .ok w → decoder w = some i → exec i (s.latch raise) = .next t →
      cycle decoder raise s = .next t.checkpoint

/-- R141: a halted core changes no state and ignores its raise, whatever the decoder. -/
def Obligations.HaltedCoreIsFrozen : Prop :=
  ∀ s : State, s.halted ≠ .running → step s = .next s ∧
    ∀ (decoder : Word → Option Instr) (raise : Option Line), cycle decoder raise s = .next s

/-- R144: a word that does not decode halts the core with its address and the word, and nothing else changes but what
the step's raise latched. -/
def Obligations.InvalidOpcodeHalts : Prop :=
  ∀ (s : State) (w : Word), s.Running → s.begun.fetch = .ok w → decode w = none →
    ∃ t, step s = .next t ∧ t.halted = .invalidOpcode (s.getX 13) w ∧ SameXBut [] s t ∧ SameF s t ∧
      t.flags = s.flags ∧ t.memmap = s.memmap ∧ t.pending = s.begun.pending ∧ t.raises = s.begun.raises ∧ SameMemory s t

/-- Derived from R143, R147 and R157, and 60_exceptions.md R366: a failing fetch takes its trap of kind Execute, with the
pc as the return address and the first failing byte's address as info. -/
def Obligations.FetchFaultTraps : Prop :=
  ∀ (s : State) (f : AccessFault), s.Running → s.begun.fetch = .error f →
    f.kind = .execute ∧ ∃ t, step s = .next t ∧ TrapTaken s.begun t (faultCause f.fault) 2 (s.getX 13) f.va

/-- Derived from R140, R146 and R164: every step of every state answers a next state. -/
def Obligations.EveryStepAnswers : Prop := ∀ s : State, ∃ t, step s = .next t

/-- Derived from R142, 60_exceptions.md R370 and 10_state.md R40: a raise sets its own PENDING bit and no other; raising
a pending line again is as no raise. -/
def Obligations.RaiseIsLatched : Prop :=
  ∀ (s : State) (l : Line) (decoder : Word → Option Instr), s.Running →
    (∃ u, SameXBut [] s u ∧ SameF s u ∧ u.flags = s.flags ∧ u.memmap = s.memmap ∧ u.halted = s.halted ∧
      u.mem = s.mem ∧ u.raises = s.raises ∧
      (∀ k, k < 8 → (u.pending.getLsbD k = true ↔ s.pending.getLsbD k = true ∨ k = l.val)) ∧
      cycle decoder (some l) s = cycle decoder none u) ∧
    (s.pending.getLsbD l.val = true → cycle decoder (some l) s = cycle decoder none s)

/-- R155: an Int instruction leaves A and F, a Float instruction leaves Z, V, C, N and P. -/
def Obligations.FlagsAreExclusive : Prop :=
  ∀ (i : Instr) (s t : State), exec i s = .next t →
    (category i = .int → t.flagSet.a = s.flagSet.a ∧ t.flagSet.f = s.flagSet.f) ∧
      (category i = .float → t.flagSet.z = s.flagSet.z ∧ t.flagSet.v = s.flagSet.v ∧ t.flagSet.c = s.flagSet.c ∧
        t.flagSet.n = s.flagSet.n ∧ t.flagSet.p = s.flagSet.p)

/-- R157, 60_exceptions.md R373 and R374: at the checkpoint of a running core the lowest line that is pending and unmasked
is taken, with the pc as the return address; with none the state is left alone. -/
def Obligations.CheckpointTakesLowestLine : Prop :=
  ∀ s : State, s.Running →
    ((∀ l, l < 8 → ¬(s.pending.getLsbD l = true ∧ s.flagSet.mask.getLsbD l = true)) → s.checkpoint = s) ∧
      ∀ l, l < 8 → s.pending.getLsbD l = true → s.flagSet.mask.getLsbD l = true →
        (∀ k, k < l → ¬(s.pending.getLsbD k = true ∧ s.flagSet.mask.getLsbD k = true)) →
        TrapTaken s s.checkpoint l 0 (s.getX 13) 0#32

/-! ## Traps and rings (spec/60_exceptions.md) -/

/-- R382 and R383: what trap entry does, for every cause; the handler's first fetch cannot fault. -/
def Obligations.TrapEntryEffect : Prop :=
  ∀ (s : State) (c : Cause) (retpc info : Word) (kind : Nat), kind < 3 →
    TrapTaken s (s.trapEntry c retpc info (BitVec.ofNat 32 kind)) (causeCode c).toNat kind retpc info ∧
      (s.trapEntry c retpc info (BitVec.ofNat 32 kind)).fetch =
        .ok ((s.trapEntry c retpc info (BitVec.ofNat 32 kind)).physRead
          ((s.trapEntry c retpc info (BitVec.ofNat 32 kind)).getX 13) 4)

/-- Derived from R390 and 44_privileged.md R309: an IRET right after a trap entry restores the flags and goes to the
return address, in a state whose reserved flag bits are zero. -/
def Obligations.IretUndoesTrapEntry : Prop :=
  ∀ (s t : State) (c : Cause) (retpc info kind : Word), s.ReservedZero →
    exec .iret (s.trapEntry c retpc info kind) = .next t →
    t.flags = s.flags ∧ t.getX 13 = retpc ∧ SameXBut [13] s t ∧ SameF s t ∧ t.memmap = s.memmap

/-- Derived from 40_engine.md R158 and R375: when the instruction of a step takes the trap of a fault, no line is taken in
the same step, and the lines stay pending. -/
def Obligations.FaultBeatsLines : Prop :=
  ∀ (s : State) (w : Word) (i : Instr) (c : Cause) (retpc info kind : Word), s.Running → 8 ≤ (causeCode c).toNat →
    s.begun.fetch = .ok w → decode w = some i → exec i s.begun = .next (s.begun.trapEntry c retpc info kind) →
    step s = .next (s.begun.trapEntry c retpc info kind) ∧
      (s.begun.trapEntry c retpc info kind).pending = s.begun.pending

/-- Derived from R391: in the state a trap entry leaves, no access fails and no line is taken, so a step is the fetched
instruction alone, as long as the instruction leaves R, M and MASK clear. -/
def Obligations.HandlerIsUndisturbed : Prop :=
  ∀ s : State, s.Running → s.InHandler →
    (∀ (k : AccessKind) (va : Word) (n : Nat), ∃ pas, s.begun.translateBytes k va n = .ok pas) ∧
      s.begun.fetch = .ok (s.physRead (s.getX 13) 4) ∧
      ∀ (i : Instr) (t : State), decode (s.physRead (s.getX 13) 4) = some i → exec i s.begun = .next t →
        t.InHandler → step s = .next t

/-- Derived from R395 and 44_privileged.md R300: a step taken in the User ring never changes memmap, never executes
HALT, and either leaves R, M, MASK and LLL as they were or takes a trap. The trap is taken on the state the step began
with (a fault) or on the state its instruction answers (a line); that state is still in the User ring, with M, MASK, LLL
and memmap as before. -/
def Obligations.UserRingIsConfined : Prop :=
  ∀ s t : State, s.Running → s.flagSet.r = true → step s = .next t →
    t.memmap = s.memmap ∧ (∀ a, t.halted ≠ .haltExecuted a) ∧
      ((t.flagSet.r = true ∧ t.flagSet.m = s.flagSet.m ∧ t.flagSet.mask = s.flagSet.mask ∧
          t.flagSet.lll = s.flagSet.lll) ∨
        ∃ u : State,
          (u = s.begun ∨ ∃ w i, s.begun.fetch = .ok w ∧ decode w = some i ∧ exec i s.begun = .next u) ∧
          u.flagSet.r = true ∧ u.flagSet.m = s.flagSet.m ∧ u.flagSet.mask = s.flagSet.mask ∧
          u.flagSet.lll = s.flagSet.lll ∧ u.memmap = s.memmap ∧
          ∃ cause kind retpc info, cause < 11 ∧ kind < 3 ∧ TrapTaken u t cause kind retpc info)

/-! ## Memory and translation (spec/20_memory.md) -/

/-- R64: an n-byte value is the sum of its bytes, least significant first, at addresses that wrap; and an access to bytes
inside a word written at any address reads those bytes of the word. -/
def Obligations.LittleEndianValues : Prop :=
  (∀ (s : State) (pa : Word) (n : Nat), n ≤ 4 →
      (s.physRead pa n).toNat =
        byteSum (s.bytesAt ((List.range n).map fun i => pa + BitVec.ofNat 32 i))) ∧
    ∀ (s : State) (pa v : Word) (i n : Nat), i + n ≤ 4 →
      ((s.physWrite pa 4 v).physRead (pa + BitVec.ofNat 32 i) n).toNat = v.toNat / 2 ^ (8 * i) % 2 ^ (8 * n)

/-- R74 and R82: with M clear, translation is the identity for every address and kind, whatever memory and memmap hold;
and translation with its permission checks is the same in both rings. -/
def Obligations.IdentityAndRings : Prop :=
  (∀ (s : State) (va : Word) (k : AccessKind), s.flagSet.m = false → s.translate va k = .ok va) ∧
    ∀ (s : State) (ring : Bool) (va : Word) (k : AccessKind),
      (s.setFlagSet { s.flagSet with r := ring }).translate va k = s.translate va k

/-- Derived from R73, R77, R80 and R81: with M set, a zero first-level entry or a clear Used bit is a PageFault, and
else a clear permission bit for the kind of the access is a ProtectionFault, the other two not consulted. -/
def Obligations.TranslationFaults : Prop :=
  ∀ (s : State) (va : Word) (k : AccessKind), s.flagSet.m = true →
    (s.entry1 va = 0#32 → s.translate va k = .error .page) ∧
      (s.entry1 va ≠ 0#32 → (s.entry2 va).getLsbD 31 = false → s.translate va k = .error .page) ∧
      (s.entry1 va ≠ 0#32 → (s.entry2 va).getLsbD 31 = true → allowed (s.entry2 va) k = false →
        s.translate va k = .error .protection)

/-- R83: with M set, a translation that is allowed adds the page base and the page offset with no wrap. -/
def Obligations.TranslatedAddress : Prop :=
  ∀ (s : State) (va : Word) (k : AccessKind), s.flagSet.m = true → s.entry1 va ≠ 0#32 →
    (s.entry2 va).getLsbD 31 = true → allowed (s.entry2 va) k = true →
    ∃ pa, s.translate va k = .ok pa ∧ pa.toNat = (s.entry2 va).toNat % 2 ^ 28 + va.toNat % 2 ^ 16 ∧
      pa.toNat ≤ 0x1000FFFE

/-- Derived from R69 and R92: an access succeeds exactly when each of its bytes translates, each for itself, and a failed
one reports the lowest failing byte. -/
def Obligations.AccessTranslatesEveryByte : Prop :=
  ∀ (s : State) (k : AccessKind) (va : Word) (n : Nat),
    (∀ pas, s.translateBytes k va n = .ok pas ↔
        pas.length = n ∧ ∀ i (h : i < pas.length), s.translate (va + BitVec.ofNat 32 i) k = .ok pas[i]) ∧
      ∀ f, s.translateBytes k va n = .error f ↔
        f.kind = k ∧ ∃ i, i < n ∧ f.va = va + BitVec.ofNat 32 i ∧ s.translate f.va k = .error f.fault ∧
          ∀ j, j < i → ∃ pa, s.translate (va + BitVec.ofNat 32 j) k = .ok pa

/-! ## State, reset and the invariant (spec/10_state.md, spec/70_reset_and_hazards.md) -/

/-- R25: a register-file entry reads back exactly as written, for all 34 ids and every value, and a write of one entry
leaves the others, PENDING, HALTED and memory alone. -/
def Obligations.RegisterPortRoundTrip : Prop :=
  ∀ (s : State) (id : RegId) (v : Word), (s.portWrite id v).portRead id = v ∧
    (∀ k, k ≠ id → (s.portWrite id v).portRead k = s.portRead k) ∧ SameCore s (s.portWrite id v) ∧
    SameMemory s (s.portWrite id v)

/-- R36: the FlagsCodec round-trips, with the reserved bits masked. -/
def Obligations.FlagsCodecRoundTrip : Prop :=
  (∀ x : Word, x &&& 0xFFF00000#32 = 0#32 → FlagsCodec.encode (FlagsCodec.decode x) = x) ∧
    (∀ x : Word, FlagsCodec.encode (FlagsCodec.decode x) = x &&& 0x000FFFFF#32) ∧
    ∀ g : FlagSet, FlagsCodec.decode (FlagsCodec.encode g) = g

/-- Derived from R44 and 70_reset_and_hazards.md R420, R421: the reset values the spec gives. It says nothing of the
registers and memory whose reset values the spec leaves open. -/
def Obligations.ResetValues : Prop :=
  State.reset.getX 13 = 0x100#32 ∧ State.reset.flags = 0#32 ∧ State.reset.memmap = 0#32 ∧
    State.reset.pending = 0#8 ∧ State.reset.halted = .running ∧ State.reset.flagSet.r = false ∧
    State.reset.flagSet.m = false ∧ State.reset.flagSet.mask = 0#8 ∧
    ∀ m : Memory, (State.reset.setMem m).fetch = .ok ((State.reset.setMem m).physRead 0x100#32 4)

/-- The invariant holds at reset: memory is in its canonical form, which is the model's own (log entry 3), and the
reserved flag bits are zero (derived from R27 and R44). -/
def Obligations.ResetKeepsInvariant : Prop := State.reset.Inv

/-- Every step keeps the invariant: memory stays in its canonical form, which is the model's own (log entry 3), and the
reserved flag bits stay zero (derived from R25 and R27: no instruction can create a state with one set). -/
def Obligations.StepKeepsInvariant : Prop := ∀ s t : State, s.Inv → step s = .next t → t.Inv
end

