-- ==== Sys2Proof/Laws/Encode.lean ====
section
/-! SUPPORT. The fields the decoder reads from an encoded word, format by format, and the bits it finds zero. -/

namespace Sys2Proof

/-! ## Each format bit by bit -/

theorem getLsbD_encodeN (op : BitVec 8) (i : Nat) :
    (encodeN op).getLsbD i = if i < 24 then false else op.getLsbD (i - 24) := by
  simp only [encodeN, BitVec.getLsbD_append]
  split
  · simp
  · rfl

theorem getLsbD_encodeR (op : BitVec 8) (rd rs1 rs2 : Fin 16) (i : Nat) :
    (encodeR op rd rs1 rs2).getLsbD i =
      if i < 12 then false else if i < 16 then (regBits rs2).getLsbD (i - 12)
      else if i < 20 then (regBits rs1).getLsbD (i - 16) else if i < 24 then (regBits rd).getLsbD (i - 20)
      else op.getLsbD (i - 24) := by
  simp only [encodeR, BitVec.getLsbD_append, Nat.sub_sub]
  repeat' split
  all_goals first | rfl | omega | simp

theorem getLsbD_encodeI (op : BitVec 8) (rd rs1 : Fin 16) (imm : BitVec 16) (i : Nat) :
    (encodeI op rd rs1 imm).getLsbD i =
      if i < 16 then imm.getLsbD i else if i < 20 then (regBits rs1).getLsbD (i - 16)
      else if i < 24 then (regBits rd).getLsbD (i - 20) else op.getLsbD (i - 24) := by
  simp only [encodeI, BitVec.getLsbD_append, Nat.sub_sub]
  repeat' split
  all_goals first | rfl | omega

theorem getLsbD_encodeB (cond : BitVec 5) (imm : BitVec 19) (i : Nat) :
    (encodeB cond imm).getLsbD i =
      if i < 19 then imm.getLsbD i else if i < 24 then cond.getLsbD (i - 19) else (0x40#8).getLsbD (i - 24) := by
  simp only [encodeB, BitVec.getLsbD_append, Nat.sub_sub]
  repeat' split
  all_goals first | rfl | omega

theorem getLsbD_encodeJ (op : BitVec 8) (imm : BitVec 24) (i : Nat) :
    (encodeJ op imm).getLsbD i = if i < 24 then imm.getLsbD i else op.getLsbD (i - 24) := by
  simp only [encodeJ, BitVec.getLsbD_append]

/-! ## Fields -/

@[simp] theorem opcodeField_encodeN (op : BitVec 8) : opcodeField (encodeN op) = op := by
  apply BitVec.eq_of_getLsbD_eq
  intro i hi
  rw [opcodeField, BitVec.getLsbD_extractLsb', getLsbD_encodeN]
  interval_cases i <;> simp

@[simp] theorem opcodeField_encodeR (op : BitVec 8) (rd rs1 rs2 : Fin 16) : opcodeField (encodeR op rd rs1 rs2) = op := by
  apply BitVec.eq_of_getLsbD_eq
  intro i hi
  rw [opcodeField, BitVec.getLsbD_extractLsb', getLsbD_encodeR]
  interval_cases i <;> simp

@[simp] theorem rdField_encodeR (op : BitVec 8) (rd rs1 rs2 : Fin 16) : rdField (encodeR op rd rs1 rs2) = rd := by
  have h : (encodeR op rd rs1 rs2).extractLsb' 20 4 = regBits rd := by
    apply BitVec.eq_of_getLsbD_eq
    intro i hi
    rw [BitVec.getLsbD_extractLsb', getLsbD_encodeR]
    interval_cases i <;> simp
  rw [rdField, h]
  rfl

@[simp] theorem rs1Field_encodeR (op : BitVec 8) (rd rs1 rs2 : Fin 16) : rs1Field (encodeR op rd rs1 rs2) = rs1 := by
  have h : (encodeR op rd rs1 rs2).extractLsb' 16 4 = regBits rs1 := by
    apply BitVec.eq_of_getLsbD_eq
    intro i hi
    rw [BitVec.getLsbD_extractLsb', getLsbD_encodeR]
    interval_cases i <;> simp
  rw [rs1Field, h]
  rfl

@[simp] theorem rs2Field_encodeR (op : BitVec 8) (rd rs1 rs2 : Fin 16) : rs2Field (encodeR op rd rs1 rs2) = rs2 := by
  have h : (encodeR op rd rs1 rs2).extractLsb' 12 4 = regBits rs2 := by
    apply BitVec.eq_of_getLsbD_eq
    intro i hi
    rw [BitVec.getLsbD_extractLsb', getLsbD_encodeR]
    interval_cases i <;> simp
  rw [rs2Field, h]
  rfl

@[simp] theorem opcodeField_encodeI (op : BitVec 8) (rd rs1 : Fin 16) (imm : BitVec 16) : opcodeField (encodeI op rd rs1 imm) = op := by
  apply BitVec.eq_of_getLsbD_eq
  intro i hi
  rw [opcodeField, BitVec.getLsbD_extractLsb', getLsbD_encodeI]
  interval_cases i <;> simp

@[simp] theorem rdField_encodeI (op : BitVec 8) (rd rs1 : Fin 16) (imm : BitVec 16) : rdField (encodeI op rd rs1 imm) = rd := by
  have h : (encodeI op rd rs1 imm).extractLsb' 20 4 = regBits rd := by
    apply BitVec.eq_of_getLsbD_eq
    intro i hi
    rw [BitVec.getLsbD_extractLsb', getLsbD_encodeI]
    interval_cases i <;> simp
  rw [rdField, h]
  rfl

@[simp] theorem rs1Field_encodeI (op : BitVec 8) (rd rs1 : Fin 16) (imm : BitVec 16) : rs1Field (encodeI op rd rs1 imm) = rs1 := by
  have h : (encodeI op rd rs1 imm).extractLsb' 16 4 = regBits rs1 := by
    apply BitVec.eq_of_getLsbD_eq
    intro i hi
    rw [BitVec.getLsbD_extractLsb', getLsbD_encodeI]
    interval_cases i <;> simp
  rw [rs1Field, h]
  rfl

@[simp] theorem imm16Field_encodeI (op : BitVec 8) (rd rs1 : Fin 16) (imm : BitVec 16) : imm16Field (encodeI op rd rs1 imm) = imm := by
  apply BitVec.eq_of_getLsbD_eq
  intro i hi
  rw [imm16Field, BitVec.getLsbD_extractLsb', getLsbD_encodeI]
  interval_cases i <;> simp

@[simp] theorem opcodeField_encodeB (cond : BitVec 5) (imm : BitVec 19) : opcodeField (encodeB cond imm) = 0x40#8 := by
  apply BitVec.eq_of_getLsbD_eq
  intro i hi
  rw [opcodeField, BitVec.getLsbD_extractLsb', getLsbD_encodeB]
  interval_cases i <;> simp

@[simp] theorem condField_encodeB (cond : BitVec 5) (imm : BitVec 19) : condField (encodeB cond imm) = cond := by
  apply BitVec.eq_of_getLsbD_eq
  intro i hi
  rw [condField, BitVec.getLsbD_extractLsb', getLsbD_encodeB]
  interval_cases i <;> simp

@[simp] theorem imm19Field_encodeB (cond : BitVec 5) (imm : BitVec 19) : imm19Field (encodeB cond imm) = imm := by
  apply BitVec.eq_of_getLsbD_eq
  intro i hi
  rw [imm19Field, BitVec.getLsbD_extractLsb', getLsbD_encodeB]
  interval_cases i <;> simp

@[simp] theorem opcodeField_encodeJ (op : BitVec 8) (imm : BitVec 24) : opcodeField (encodeJ op imm) = op := by
  apply BitVec.eq_of_getLsbD_eq
  intro i hi
  rw [opcodeField, BitVec.getLsbD_extractLsb', getLsbD_encodeJ]
  interval_cases i <;> simp

@[simp] theorem imm24Field_encodeJ (op : BitVec 8) (imm : BitVec 24) : imm24Field (encodeJ op imm) = imm := by
  apply BitVec.eq_of_getLsbD_eq
  intro i hi
  rw [imm24Field, BitVec.getLsbD_extractLsb', getLsbD_encodeJ]
  interval_cases i <;> simp

/-! ## Must-be-zero bits (30_encoding.md R110) -/

theorem encodeN_zero (op : BitVec 8) : encodeN op &&& 0xFFFFFF#32 = 0#32 := by
  apply BitVec.eq_of_getLsbD_eq
  intro i hi
  rw [BitVec.getLsbD_and, getLsbD_encodeN]
  interval_cases i <;> simp

theorem encodeR_zero_r3 (op : BitVec 8) (rd rs1 rs2 : Fin 16) : encodeR op rd rs1 rs2 &&& 0x000FFF#32 = 0#32 := by
  apply BitVec.eq_of_getLsbD_eq
  intro i hi
  rw [BitVec.getLsbD_and, getLsbD_encodeR]
  interval_cases i <;> simp

theorem encodeR_zero_r2 (op : BitVec 8) (rd rs1 : Fin 16) : encodeR op rd rs1 0 &&& 0x00FFFF#32 = 0#32 := by
  apply BitVec.eq_of_getLsbD_eq
  intro i hi
  rw [BitVec.getLsbD_and, getLsbD_encodeR]
  interval_cases i <;> simp [regBits]

theorem encodeR_zero_rd (op : BitVec 8) (rd : Fin 16) : encodeR op rd 0 0 &&& 0x0FFFFF#32 = 0#32 := by
  apply BitVec.eq_of_getLsbD_eq
  intro i hi
  rw [BitVec.getLsbD_and, getLsbD_encodeR]
  interval_cases i <;> simp [regBits]

theorem encodeR_zero_rs (op : BitVec 8) (rs1 : Fin 16) : encodeR op 0 rs1 0 &&& 0xF0FFFF#32 = 0#32 := by
  apply BitVec.eq_of_getLsbD_eq
  intro i hi
  rw [BitVec.getLsbD_and, getLsbD_encodeR]
  interval_cases i <;> simp [regBits]

theorem encodeR_zero_rss (op : BitVec 8) (rs1 rs2 : Fin 16) : encodeR op 0 rs1 rs2 &&& 0xF00FFF#32 = 0#32 := by
  apply BitVec.eq_of_getLsbD_eq
  intro i hi
  rw [BitVec.getLsbD_and, getLsbD_encodeR]
  interval_cases i <;> simp [regBits]

/-- A shift field that passes the check has its bits 15:5 clear. -/
theorem getLsbD_of_shiftFieldOk {imm : BitVec 16} (h : shiftFieldOk imm = true) (i : Nat) (hlo : 5 ≤ i) (hhi : i < 16) :
    imm.getLsbD i = false := by
  have hbits : imm.extractLsb' 5 11 = 0#11 := by simpa [shiftFieldOk] using h
  have := congrArg (fun v => v.getLsbD (i - 5)) hbits
  simpa [BitVec.getLsbD_extractLsb', (by omega : i - 5 < 11), (by omega : 5 + (i - 5) = i)] using this

theorem encodeI_zero_shift (op : BitVec 8) (rd rs1 : Fin 16) (imm : BitVec 16) (h : shiftFieldOk imm = true) :
    encodeI op rd rs1 imm &&& 0x00FFE0#32 = 0#32 := by
  have clear := getLsbD_of_shiftFieldOk h
  apply BitVec.eq_of_getLsbD_eq
  intro i hi
  rw [BitVec.getLsbD_and, getLsbD_encodeI]
  by_cases h5 : 5 ≤ i ∧ i < 16
  · rw [if_pos h5.2, clear i h5.1 h5.2, Bool.false_and, BitVec.getLsbD_zero]
  · have : (0x00FFE0#32).getLsbD i = false := by
      interval_cases i <;> first | rfl | omega
    simp [this]

theorem encodeI_zero_rd (op : BitVec 8) (rs1 : Fin 16) (imm : BitVec 16) : encodeI op 0 rs1 imm &&& 0xF00000#32 = 0#32 := by
  apply BitVec.eq_of_getLsbD_eq
  intro i hi
  rw [BitVec.getLsbD_and, getLsbD_encodeI]
  interval_cases i <;> simp [regBits]

theorem encodeI_zero_rs (op : BitVec 8) (rd : Fin 16) (imm : BitVec 16) : encodeI op rd 0 imm &&& 0x0F0000#32 = 0#32 := by
  apply BitVec.eq_of_getLsbD_eq
  intro i hi
  rw [BitVec.getLsbD_and, getLsbD_encodeI]
  interval_cases i <;> simp [regBits]

/-! ## The whole row: `w &&& mask = match`, for a word whose opcode field and zero bits are known -/

/-- A word whose opcode is `op` and whose must-be-zero bits `zero` are clear matches the row of the two. -/
theorem and_row_of_fields {w zero : Word} {op : BitVec 8} (hop : opcodeField w = op) (hzero : w &&& zero = 0#32) :
    w &&& (0xFF000000#32 ||| zero) = op ++ 0#24 := by
  have htop : w &&& 0xFF000000#32 = op ++ 0#24 := by
    subst hop
    apply BitVec.eq_of_getLsbD_eq
    intro i hi
    rw [BitVec.getLsbD_and, BitVec.getLsbD_append, opcodeField]
    by_cases h24 : i < 24
    · have : (0xFF000000#32).getLsbD i = false := by interval_cases i <;> rfl
      simp [this, h24]
    · have : (0xFF000000#32).getLsbD i = true := by interval_cases i <;> rfl
      simp [this, h24, (by omega : i - 24 < 8), (by omega : 24 + (i - 24) = i)]
  rw [BitVec.and_or_distrib_left, htop, hzero, BitVec.or_zero]

theorem encodeR_mask_r3 (op : BitVec 8) (rd rs1 rs2 : Fin 16) : encodeR op rd rs1 rs2 &&& 0xFF000FFF#32 = op ++ 0#24 :=
  and_row_of_fields (zero := 0x000FFF#32) (opcodeField_encodeR ..) (encodeR_zero_r3 op rd rs1 rs2)

theorem encodeR_mask_r2 (op : BitVec 8) (rd rs1 : Fin 16) : encodeR op rd rs1 0 &&& 0xFF00FFFF#32 = op ++ 0#24 :=
  and_row_of_fields (zero := 0x00FFFF#32) (opcodeField_encodeR ..) (encodeR_zero_r2 op rd rs1)

theorem encodeR_mask_rd (op : BitVec 8) (rd : Fin 16) : encodeR op rd 0 0 &&& 0xFF0FFFFF#32 = op ++ 0#24 :=
  and_row_of_fields (zero := 0x0FFFFF#32) (opcodeField_encodeR ..) (encodeR_zero_rd op rd)

theorem encodeR_mask_rs (op : BitVec 8) (rs1 : Fin 16) : encodeR op 0 rs1 0 &&& 0xFFF0FFFF#32 = op ++ 0#24 :=
  and_row_of_fields (zero := 0xF0FFFF#32) (opcodeField_encodeR ..) (encodeR_zero_rs op rs1)

theorem encodeR_mask_rss (op : BitVec 8) (rs1 rs2 : Fin 16) : encodeR op 0 rs1 rs2 &&& 0xFFF00FFF#32 = op ++ 0#24 :=
  and_row_of_fields (zero := 0xF00FFF#32) (opcodeField_encodeR ..) (encodeR_zero_rss op rs1 rs2)

theorem encodeI_mask_shift (op : BitVec 8) (rd rs1 : Fin 16) (imm : BitVec 16) (h : shiftFieldOk imm = true) : encodeI op rd rs1 imm &&& 0xFF00FFE0#32 = op ++ 0#24 :=
  and_row_of_fields (zero := 0x00FFE0#32) (opcodeField_encodeI ..) (encodeI_zero_shift op rd rs1 imm h)

theorem encodeI_mask_rd0 (op : BitVec 8) (rs1 : Fin 16) (imm : BitVec 16) : encodeI op 0 rs1 imm &&& 0xFFF00000#32 = op ++ 0#24 :=
  and_row_of_fields (zero := 0xF00000#32) (opcodeField_encodeI ..) (encodeI_zero_rd op rs1 imm)

theorem encodeI_mask_rs0 (op : BitVec 8) (rd : Fin 16) (imm : BitVec 16) : encodeI op rd 0 imm &&& 0xFF0F0000#32 = op ++ 0#24 :=
  and_row_of_fields (zero := 0x0F0000#32) (opcodeField_encodeI ..) (encodeI_zero_rs op rd imm)

theorem encodeI_mask (op : BitVec 8) (rd rs1 : Fin 16) (imm : BitVec 16) :
    encodeI op rd rs1 imm &&& 0xFF000000#32 = op ++ 0#24 :=
  and_row_of_fields (zero := 0#32) (opcodeField_encodeI ..) (BitVec.and_zero ..)

theorem encodeJ_mask (op : BitVec 8) (imm : BitVec 24) : encodeJ op imm &&& 0xFF000000#32 = op ++ 0#24 :=
  and_row_of_fields (zero := 0#32) (opcodeField_encodeJ ..) (BitVec.and_zero ..)

theorem encodeB_mask (cond : BitVec 5) (imm : BitVec 19) :
    encodeB cond imm &&& 0xFFF80000#32 = 0x40#8 ++ cond ++ 0#19 := by
  apply BitVec.eq_of_getLsbD_eq
  intro i hi
  rw [BitVec.getLsbD_and, getLsbD_encodeB, BitVec.getLsbD_append, BitVec.getLsbD_append]
  interval_cases i <;> simp

end Sys2Proof
end

