-- ==== Sys2Proof/Laws/Flags.lean ====
section
/-! SUPPORT. The FlagsCodec bit by bit, and what each architectural write of flags leaves in the fields. -/

namespace Sys2Proof.Machine

open Sys2Proof.Config

/-- Each bit of a one-bit field at its place. -/
theorem getLsbD_flagBit (field : FlagField) (b : Bool) (i : Nat) (hi : i < 32) :
    (flagBit field b).getLsbD i = (decide (i = flagsLayout field) && b) := by
  cases b <;> simp [flagBit, hi]
  have : flagsLayout field < 32 := by cases field <;> decide
  by_cases h : i < flagsLayout field
  · simp [h]; omega
  · by_cases h2 : i = flagsLayout field
    · simp [h2]
    · simp [h, h2]
      omega

/-- Each bit of an encoded record. -/
theorem getLsbD_encode (s : FlagSet) (i : Nat) (hi : i < 32) :
    (FlagsCodec.encode s).getLsbD i =
      (s.mask.getLsbD i || (decide (8 ≤ i) && s.lll.getLsbD (i - 8)) || (decide (i = 11) && s.z)
        || (decide (i = 12) && s.v) || (decide (i = 13) && s.c) || (decide (i = 14) && s.n) || (decide (i = 15) && s.p)
        || (decide (i = 16) && s.a) || (decide (i = 17) && s.f) || (decide (i = 18) && s.r)
        || (decide (i = 19) && s.m)) := by
  simp only [FlagsCodec.encode, BitVec.getLsbD_or, getLsbD_flagBit _ _ _ hi, BitVec.getLsbD_shiftLeft,
    BitVec.getLsbD_setWidth, flagsLayout]
  simp only [hi, decide_true, Bool.true_and, Nat.not_lt_zero, decide_false, Bool.not_false, Nat.sub_zero]
  by_cases h8 : i < 8
  · have : ¬ 8 ≤ i := by omega
    simp [h8, this]
    rfl
  · have h8' : 8 ≤ i := by omega
    have : i - 8 < 32 := by omega
    simp [h8, h8', this]
    rfl

/-- Decoding what was encoded gives the record back. -/
@[simp] theorem decode_encode (s : FlagSet) : FlagsCodec.decode (FlagsCodec.encode s) = s := by
  rcases s with ⟨mask, lll, z, v, c, n, p, a, f, r, m⟩
  have bit (i : Nat) (hi : i < 32) := getLsbD_encode ⟨mask, lll, z, v, c, n, p, a, f, r, m⟩ i hi
  simp only [FlagsCodec.decode, flagsLayout, bit 11 (by decide), bit 12 (by decide), bit 13 (by decide),
    bit 14 (by decide), bit 15 (by decide), bit 16 (by decide), bit 17 (by decide), bit 18 (by decide),
    bit 19 (by decide)]
  simp
  constructor
  · apply BitVec.eq_of_getLsbD_eq
    intro i hi
    simp only [BitVec.getLsbD_extractLsb', bit (0 + i) (by omega)]
    interval_cases i <;> simp
  · apply BitVec.eq_of_getLsbD_eq
    intro i hi
    simp only [BitVec.getLsbD_extractLsb', bit (8 + i) (by omega)]
    interval_cases i <;> simp

/-- An encoded word has its reserved bits zero. -/
@[simp] theorem encode_reserved (s : FlagSet) : FlagsCodec.encode s &&& 0xFFF00000#32 = 0#32 := by
  apply BitVec.eq_of_getLsbD_eq
  intro i hi
  rw [BitVec.getLsbD_and, getLsbD_encode _ _ hi]
  interval_cases i <;> simp

@[simp] theorem decode_codecFlags (w : Word) : FlagsCodec.decode (codecFlags w) = FlagsCodec.decode w :=
  decode_encode _

@[simp] theorem codecFlags_reserved (w : Word) : codecFlags w &&& 0xFFF00000#32 = 0#32 := encode_reserved _

@[simp] theorem decode_intFlags (w : Word) (res : IntResult) :
    FlagsCodec.decode (intFlags w res) = (FlagsCodec.decode w).afterInt res := decode_encode _

@[simp] theorem intFlags_reserved (w : Word) (res : IntResult) : intFlags w res &&& 0xFFF00000#32 = 0#32 :=
  encode_reserved _

@[simp] theorem decode_floatFlags (w b : Word) :
    FlagsCodec.decode (floatFlags w b) = (FlagsCodec.decode w).afterFloat b := decode_encode _

@[simp] theorem floatFlags_reserved (w b : Word) : floatFlags w b &&& 0xFFF00000#32 = 0#32 := encode_reserved _

end Sys2Proof.Machine
end

