-- ==== Sys2Proof/Laws/Memory.lean ====
section
/-! SUPPORT. Memory: what a read gives after a write, for any list of cells, and the canonical form kept by every
operation. -/

namespace Sys2Proof.Machine

/-! ## Reads after writes of one byte -/

theorem Memory.read_erase (m : Memory) (a b : Nat) :
    Memory.read (Memory.erase m a) b = if a = b then Config.initByte else Memory.read m b := by
  induction m with
  | nil => simp [Memory.erase, Memory.read]
  | cons cell rest ih =>
    obtain ⟨k, v⟩ := cell
    by_cases hk : k = a
    · subst hk
      simp only [Memory.erase, if_true, ih, Memory.read]
      split <;> rfl
    · simp only [Memory.erase, if_neg hk, Memory.read, ih]
      by_cases hb : k = b
      · subst hb; simp [Ne.symm hk]
      · simp [hb]

theorem Memory.read_insert (m : Memory) (a b : Nat) (v : Byte) (h : Memory.read m a = Config.initByte ∨ a ≠ b)
    (fresh : ∀ cell ∈ m, cell.1 ≠ a) :
    Memory.read (Memory.insert m a v) b = if a = b then v else Memory.read m b := by
  induction m with
  | nil => simp [Memory.insert, Memory.read]
  | cons cell rest ih =>
    obtain ⟨k, w⟩ := cell
    have hk : k ≠ a := fresh (k, w) (by simp)
    have fresh' : ∀ cell ∈ rest, cell.1 ≠ a := fun c hc => fresh c (by simp [hc])
    have h' : Memory.read rest a = Config.initByte ∨ a ≠ b := by
      rcases h with h | h
      · exact .inl (by simpa [Memory.read, hk] using h)
      · exact .inr h
    by_cases hlt : a < k
    · simp only [Memory.insert, if_pos hlt, Memory.read]
    · simp only [Memory.insert, if_neg hlt, Memory.read, ih h' fresh']
      by_cases hb : k = b
      · subst hb; simp [Ne.symm hk]
      · simp [hb]

theorem Memory.erase_fresh (m : Memory) (a : Nat) : ∀ cell ∈ Memory.erase m a, cell.1 ≠ a := by
  induction m with
  | nil => simp [Memory.erase]
  | cons cell rest ih =>
    obtain ⟨k, v⟩ := cell
    by_cases hk : k = a
    · simpa [Memory.erase, hk] using ih
    · intro c hc
      simp only [Memory.erase, if_neg hk, List.mem_cons] at hc
      rcases hc with rfl | hc
      · exact hk
      · exact ih c hc

/-- The whole of what a write of one byte does to reads. -/
theorem Memory.read_write (m : Memory) (a b : Nat) (v : Byte) :
    Memory.read (Memory.write m a v) b = if a = b then v else Memory.read m b := by
  by_cases hv : v = Config.initByte
  · rw [Memory.write, if_pos hv, Memory.read_erase, hv]
  · rw [Memory.write, if_neg hv,
      Memory.read_insert _ _ _ _ (.inl (by simp [Memory.read_erase])) (Memory.erase_fresh m a), Memory.read_erase]
    split <;> rfl

@[simp] theorem Memory.read_write_same (m : Memory) (a : Nat) (v : Byte) :
    Memory.read (Memory.write m a v) a = v := by simp [Memory.read_write]

theorem Memory.read_write_ne (m : Memory) {a b : Nat} (v : Byte) (h : a ≠ b) :
    Memory.read (Memory.write m a v) b = Memory.read m b := by simp [Memory.read_write, h]

/-! ## Writes of many bytes -/

/-- A byte outside the written addresses reads as before. -/
theorem Memory.read_writeAll_of_notMem (m : Memory) (l : List (Word × Byte)) (a : Nat)
    (h : ∀ cell ∈ l, cell.1.toNat ≠ a) : Memory.read (Memory.writeAll m l) a = Memory.read m a := by
  induction l generalizing m with
  | nil => rfl
  | cons cell rest ih =>
    obtain ⟨pa, v⟩ := cell
    rw [Memory.writeAll, ih _ (fun c hc => h c (by simp [hc])), Memory.read_write_ne _ _ (h (pa, v) (by simp))]

/-- A byte written once reads as what was written. -/
theorem Memory.read_writeAll_of_mem (m : Memory) (l : List (Word × Byte)) (pa : Word) (v : Byte)
    (hmem : (pa, v) ∈ l) (hnodup : (l.map Prod.fst).Nodup) :
    Memory.read (Memory.writeAll m l) pa.toNat = v := by
  induction l generalizing m with
  | nil => simp at hmem
  | cons cell rest ih =>
    obtain ⟨pb, w⟩ := cell
    simp only [List.map_cons, List.nodup_cons] at hnodup
    rw [Memory.writeAll]
    rcases List.mem_cons.mp hmem with heq | hrest
    · obtain ⟨rfl, rfl⟩ := Prod.mk.inj heq
      rw [Memory.read_writeAll_of_notMem, Memory.read_write_same]
      intro c hc heq
      exact hnodup.1 (List.mem_map.mpr ⟨c, hc, BitVec.eq_of_toNat_eq heq⟩)
    · exact ih _ hrest hnodup.2

/-! ## The canonical form -/

theorem Memory.wfFrom_mono {m : Memory} {low low' : Nat} (hle : low' ≤ low) (h : Memory.wfFrom low m = true) :
    Memory.wfFrom low' m = true := by
  cases m with
  | nil => rfl
  | cons cell rest =>
    obtain ⟨k, v⟩ := cell
    simp only [Memory.wfFrom, Bool.and_eq_true, decide_eq_true_eq] at h ⊢
    exact ⟨⟨⟨le_trans hle h.1.1.1, h.1.1.2⟩, h.1.2⟩, h.2⟩

theorem Memory.wfFrom_erase {m : Memory} {low : Nat} (a : Nat) (h : Memory.wfFrom low m = true) :
    Memory.wfFrom low (Memory.erase m a) = true := by
  induction m generalizing low with
  | nil => rfl
  | cons cell rest ih =>
    obtain ⟨k, v⟩ := cell
    simp only [Memory.wfFrom, Bool.and_eq_true, decide_eq_true_eq] at h
    by_cases hk : k = a
    · rw [Memory.erase, if_pos hk]
      exact Memory.wfFrom_mono (by omega) (ih h.2)
    · simp only [Memory.erase, if_neg hk, Memory.wfFrom, Bool.and_eq_true, decide_eq_true_eq]
      exact ⟨h.1, ih h.2⟩

theorem Memory.wfFrom_insert {m : Memory} {low a : Nat} {v : Byte} (h : Memory.wfFrom low m = true)
    (hlow : low ≤ a) (ha : a < 2 ^ 32) (hv : v ≠ Config.initByte) (fresh : ∀ cell ∈ m, cell.1 ≠ a) :
    Memory.wfFrom low (Memory.insert m a v) = true := by
  induction m generalizing low with
  | nil => simpa [Memory.insert, Memory.wfFrom, hlow, hv] using ha
  | cons cell rest ih =>
    obtain ⟨k, w⟩ := cell
    simp only [Memory.wfFrom, Bool.and_eq_true, decide_eq_true_eq] at h
    have hk : k ≠ a := fresh (k, w) (by simp)
    by_cases hlt : a < k
    · simp only [Memory.insert, if_pos hlt, Memory.wfFrom, Bool.and_eq_true, decide_eq_true_eq, bne_iff_ne]
      exact ⟨⟨⟨hlow, ha⟩, hv⟩, ⟨⟨hlt, h.1.1.2⟩, by simpa using h.1.2⟩, h.2⟩
    · simp only [Memory.insert, if_neg hlt, Memory.wfFrom, Bool.and_eq_true, decide_eq_true_eq]
      exact ⟨h.1, ih h.2 (by omega) fun c hc => fresh c (by simp [hc])⟩

/-- A write inside the address space keeps the canonical form. -/
theorem Memory.wf_write {m : Memory} {a : Nat} (v : Byte) (h : Memory.wf m = true) (ha : a < 2 ^ 32) :
    Memory.wf (Memory.write m a v) = true := by
  rw [Memory.write]
  split
  · exact Memory.wfFrom_erase a h
  · rename_i hv
    exact Memory.wfFrom_insert (Memory.wfFrom_erase a h) (Nat.zero_le a) ha hv (Memory.erase_fresh m a)

/-- Writes of many bytes keep the canonical form: a `Word` is an address of the space. -/
theorem Memory.wf_writeAll {m : Memory} (l : List (Word × Byte)) (h : Memory.wf m = true) :
    Memory.wf (Memory.writeAll m l) = true := by
  induction l generalizing m with
  | nil => exact h
  | cons cell rest ih => exact ih (Memory.wf_write cell.2 h cell.1.isLt)

/-! ## Physical reads and writes of a state -/

@[simp] theorem addrsFrom_length (a : Word) (n : Nat) : (addrsFrom a n).length = n := by
  induction n generalizing a with
  | zero => rfl
  | succ n ih => simp [addrsFrom, ih]

theorem mem_addrsFrom {a b : Word} {n : Nat} (h : b ∈ addrsFrom a n) : ∃ i, i < n ∧ b = a + BitVec.ofNat 32 i := by
  induction n generalizing a with
  | zero => simp [addrsFrom] at h
  | succ n ih =>
    rcases List.mem_cons.mp h with rfl | h
    · exact ⟨0, by omega, by simp⟩
    · obtain ⟨i, hi, rfl⟩ := ih h
      exact ⟨i + 1, by omega, by rw [BitVec.add_assoc, BitVec.ofNat_add, BitVec.add_comm (BitVec.ofNat 32 i)]⟩

@[simp] theorem leBytes_length (n : Nat) (v : Word) : (leBytes n v).length = n := by
  induction n generalizing v with
  | zero => rfl
  | succ n ih => simp [leBytes, ih]

theorem State.writeBytes_eq (s : State) (pa : Word) (data : List Byte) :
    s.writeBytes pa data = s.setMem (s.mem.writeAll ((addrsFrom pa data.length).zip data)) := rfl

theorem State.physWrite_eq (s : State) (pa : Word) (n : Nat) (v : Word) :
    s.physWrite pa n v = s.setMem (s.mem.writeAll ((addrsFrom pa n).zip (leBytes n v))) := by
  rw [State.physWrite, State.writeBytes_eq, leBytes_length]

@[simp] theorem State.physWrite_x (s : State) (pa : Word) (n : Nat) (v : Word) : (s.physWrite pa n v).x = s.x := by simp [State.physWrite, State.writeBytes]
@[simp] theorem State.physWrite_f (s : State) (pa : Word) (n : Nat) (v : Word) : (s.physWrite pa n v).f = s.f := by simp [State.physWrite, State.writeBytes]
@[simp] theorem State.physWrite_flags (s : State) (pa : Word) (n : Nat) (v : Word) :
    (s.physWrite pa n v).flags = s.flags := by simp [State.physWrite, State.writeBytes]
@[simp] theorem State.physWrite_memmap (s : State) (pa : Word) (n : Nat) (v : Word) :
    (s.physWrite pa n v).memmap = s.memmap := by simp [State.physWrite, State.writeBytes]
@[simp] theorem State.physWrite_pending (s : State) (pa : Word) (n : Nat) (v : Word) :
    (s.physWrite pa n v).pending = s.pending := by simp [State.physWrite, State.writeBytes]
@[simp] theorem State.physWrite_halted (s : State) (pa : Word) (n : Nat) (v : Word) :
    (s.physWrite pa n v).halted = s.halted := by simp [State.physWrite, State.writeBytes]
@[simp] theorem State.physWrite_raises (s : State) (pa : Word) (n : Nat) (v : Word) :
    (s.physWrite pa n v).raises = s.raises := by simp [State.physWrite, State.writeBytes]

theorem State.physWrite_wf (s : State) (pa : Word) (n : Nat) (v : Word) (h : Memory.wf s.mem = true) :
    Memory.wf (s.physWrite pa n v).mem = true := Memory.wf_writeAll _ h

/-- A byte outside the `n` addresses written reads as before. -/
theorem State.read_physWrite_of_notMem (s : State) (pa : Word) (n : Nat) (v : Word) (a : Nat)
    (h : ∀ i, i < n → (pa + BitVec.ofNat 32 i).toNat ≠ a) :
    Memory.read (s.physWrite pa n v).mem a = Memory.read s.mem a := by
  rw [State.physWrite_eq]
  refine Memory.read_writeAll_of_notMem _ _ _ fun cell hc => ?_
  obtain ⟨i, hi, hb⟩ := mem_addrsFrom (List.of_mem_zip hc).1
  rw [hb]
  exact h i hi

end Sys2Proof.Machine
end

