-- ==== Sys2Proof/Laws/State.lean ====
section
/-! SUPPORT. One lemma per field per update of the state, so that no proof unfolds a record update; the reads of
registers after writes of registers; and the derived reads `getX`, `getF`, `flagSet`, `pc`, `sp`, `userRing`. -/

namespace Sys2Proof.Machine

/-! ## Fields after the eight updates -/

@[simp] theorem State.setX_f (s : State) (i : XReg) (v : Word) : (s.setX i v).f = s.f := rfl
@[simp] theorem State.setX_flags (s : State) (i : XReg) (v : Word) : (s.setX i v).flags = s.flags := rfl
@[simp] theorem State.setX_memmap (s : State) (i : XReg) (v : Word) : (s.setX i v).memmap = s.memmap := rfl
@[simp] theorem State.setX_pending (s : State) (i : XReg) (v : Word) : (s.setX i v).pending = s.pending := rfl
@[simp] theorem State.setX_halted (s : State) (i : XReg) (v : Word) : (s.setX i v).halted = s.halted := rfl
@[simp] theorem State.setX_mem (s : State) (i : XReg) (v : Word) : (s.setX i v).mem = s.mem := rfl
@[simp] theorem State.setX_raises (s : State) (i : XReg) (v : Word) : (s.setX i v).raises = s.raises := rfl

@[simp] theorem State.setF_x (s : State) (i : FReg) (v : Word) : (s.setF i v).x = s.x := rfl
@[simp] theorem State.setF_flags (s : State) (i : FReg) (v : Word) : (s.setF i v).flags = s.flags := rfl
@[simp] theorem State.setF_memmap (s : State) (i : FReg) (v : Word) : (s.setF i v).memmap = s.memmap := rfl
@[simp] theorem State.setF_pending (s : State) (i : FReg) (v : Word) : (s.setF i v).pending = s.pending := rfl
@[simp] theorem State.setF_halted (s : State) (i : FReg) (v : Word) : (s.setF i v).halted = s.halted := rfl
@[simp] theorem State.setF_mem (s : State) (i : FReg) (v : Word) : (s.setF i v).mem = s.mem := rfl
@[simp] theorem State.setF_raises (s : State) (i : FReg) (v : Word) : (s.setF i v).raises = s.raises := rfl

@[simp] theorem State.setFlags_x (s : State) (w : Word) : (s.setFlags w).x = s.x := rfl
@[simp] theorem State.setFlags_f (s : State) (w : Word) : (s.setFlags w).f = s.f := rfl
@[simp] theorem State.setFlags_flags (s : State) (w : Word) : (s.setFlags w).flags = w := rfl
@[simp] theorem State.setFlags_memmap (s : State) (w : Word) : (s.setFlags w).memmap = s.memmap := rfl
@[simp] theorem State.setFlags_pending (s : State) (w : Word) : (s.setFlags w).pending = s.pending := rfl
@[simp] theorem State.setFlags_halted (s : State) (w : Word) : (s.setFlags w).halted = s.halted := rfl
@[simp] theorem State.setFlags_mem (s : State) (w : Word) : (s.setFlags w).mem = s.mem := rfl
@[simp] theorem State.setFlags_raises (s : State) (w : Word) : (s.setFlags w).raises = s.raises := rfl

@[simp] theorem State.setMemmap_x (s : State) (w : Word) : (s.setMemmap w).x = s.x := rfl
@[simp] theorem State.setMemmap_f (s : State) (w : Word) : (s.setMemmap w).f = s.f := rfl
@[simp] theorem State.setMemmap_flags (s : State) (w : Word) : (s.setMemmap w).flags = s.flags := rfl
@[simp] theorem State.setMemmap_memmap (s : State) (w : Word) : (s.setMemmap w).memmap = w := rfl
@[simp] theorem State.setMemmap_pending (s : State) (w : Word) : (s.setMemmap w).pending = s.pending := rfl
@[simp] theorem State.setMemmap_halted (s : State) (w : Word) : (s.setMemmap w).halted = s.halted := rfl
@[simp] theorem State.setMemmap_mem (s : State) (w : Word) : (s.setMemmap w).mem = s.mem := rfl
@[simp] theorem State.setMemmap_raises (s : State) (w : Word) : (s.setMemmap w).raises = s.raises := rfl

@[simp] theorem State.setPending_x (s : State) (p : BitVec 8) : (s.setPending p).x = s.x := rfl
@[simp] theorem State.setPending_f (s : State) (p : BitVec 8) : (s.setPending p).f = s.f := rfl
@[simp] theorem State.setPending_flags (s : State) (p : BitVec 8) : (s.setPending p).flags = s.flags := rfl
@[simp] theorem State.setPending_memmap (s : State) (p : BitVec 8) : (s.setPending p).memmap = s.memmap := rfl
@[simp] theorem State.setPending_pending (s : State) (p : BitVec 8) : (s.setPending p).pending = p := rfl
@[simp] theorem State.setPending_halted (s : State) (p : BitVec 8) : (s.setPending p).halted = s.halted := rfl
@[simp] theorem State.setPending_mem (s : State) (p : BitVec 8) : (s.setPending p).mem = s.mem := rfl
@[simp] theorem State.setPending_raises (s : State) (p : BitVec 8) : (s.setPending p).raises = s.raises := rfl

@[simp] theorem State.setHalted_x (s : State) (h : RunState) : (s.setHalted h).x = s.x := rfl
@[simp] theorem State.setHalted_f (s : State) (h : RunState) : (s.setHalted h).f = s.f := rfl
@[simp] theorem State.setHalted_flags (s : State) (h : RunState) : (s.setHalted h).flags = s.flags := rfl
@[simp] theorem State.setHalted_memmap (s : State) (h : RunState) : (s.setHalted h).memmap = s.memmap := rfl
@[simp] theorem State.setHalted_pending (s : State) (h : RunState) : (s.setHalted h).pending = s.pending := rfl
@[simp] theorem State.setHalted_halted (s : State) (h : RunState) : (s.setHalted h).halted = h := rfl
@[simp] theorem State.setHalted_mem (s : State) (h : RunState) : (s.setHalted h).mem = s.mem := rfl
@[simp] theorem State.setHalted_raises (s : State) (h : RunState) : (s.setHalted h).raises = s.raises := rfl

@[simp] theorem State.setMem_x (s : State) (m : Memory) : (s.setMem m).x = s.x := rfl
@[simp] theorem State.setMem_f (s : State) (m : Memory) : (s.setMem m).f = s.f := rfl
@[simp] theorem State.setMem_flags (s : State) (m : Memory) : (s.setMem m).flags = s.flags := rfl
@[simp] theorem State.setMem_memmap (s : State) (m : Memory) : (s.setMem m).memmap = s.memmap := rfl
@[simp] theorem State.setMem_pending (s : State) (m : Memory) : (s.setMem m).pending = s.pending := rfl
@[simp] theorem State.setMem_halted (s : State) (m : Memory) : (s.setMem m).halted = s.halted := rfl
@[simp] theorem State.setMem_mem (s : State) (m : Memory) : (s.setMem m).mem = m := rfl
@[simp] theorem State.setMem_raises (s : State) (m : Memory) : (s.setMem m).raises = s.raises := rfl

@[simp] theorem State.setRaises_x (s : State) (l : List (Option Line)) : (s.setRaises l).x = s.x := rfl
@[simp] theorem State.setRaises_f (s : State) (l : List (Option Line)) : (s.setRaises l).f = s.f := rfl
@[simp] theorem State.setRaises_flags (s : State) (l : List (Option Line)) : (s.setRaises l).flags = s.flags := rfl
@[simp] theorem State.setRaises_memmap (s : State) (l : List (Option Line)) : (s.setRaises l).memmap = s.memmap := rfl
@[simp] theorem State.setRaises_pending (s : State) (l : List (Option Line)) : (s.setRaises l).pending = s.pending := rfl
@[simp] theorem State.setRaises_halted (s : State) (l : List (Option Line)) : (s.setRaises l).halted = s.halted := rfl
@[simp] theorem State.setRaises_mem (s : State) (l : List (Option Line)) : (s.setRaises l).mem = s.mem := rfl
@[simp] theorem State.setRaises_raises (s : State) (l : List (Option Line)) : (s.setRaises l).raises = l := rfl

/-! ## Register reads after register writes -/

theorem State.getX_setX (s : State) (i j : XReg) (v : Word) :
    (s.setX i v).getX j = if i = j then v else s.getX j := by
  simp [State.getX, State.setX, Vector.getElem_set, Fin.ext_iff]

@[simp] theorem State.getX_setX_same (s : State) (i : XReg) (v : Word) : (s.setX i v).getX i = v := by
  simp [State.getX_setX]

theorem State.getX_setX_ne (s : State) {i j : XReg} (v : Word) (h : i ≠ j) : (s.setX i v).getX j = s.getX j := by
  simp [State.getX_setX, h]

theorem State.getF_setF (s : State) (i j : FReg) (v : Word) :
    (s.setF i v).getF j = if i = j then v else s.getF j := by
  simp [State.getF, State.setF, Vector.getElem_set, Fin.ext_iff]

@[simp] theorem State.getF_setF_same (s : State) (i : FReg) (v : Word) : (s.setF i v).getF i = v := by
  simp [State.getF_setF]

theorem State.getF_setF_ne (s : State) {i j : FReg} (v : Word) (h : i ≠ j) : (s.setF i v).getF j = s.getF j := by
  simp [State.getF_setF, h]

/-! ## Derived reads after the updates that do not touch them -/

@[simp] theorem State.getF_setX (s : State) (i : XReg) (v : Word) (j : FReg) : (s.setX i v).getF j = s.getF j := rfl
@[simp] theorem State.flagSet_setX (s : State) (i : XReg) (v : Word) : (s.setX i v).flagSet = s.flagSet := rfl
@[simp] theorem State.userRing_setX (s : State) (i : XReg) (v : Word) : (s.setX i v).userRing = s.userRing := rfl

@[simp] theorem State.getX_setF (s : State) (i : FReg) (v : Word) (j : XReg) : (s.setF i v).getX j = s.getX j := rfl
@[simp] theorem State.flagSet_setF (s : State) (i : FReg) (v : Word) : (s.setF i v).flagSet = s.flagSet := rfl
@[simp] theorem State.userRing_setF (s : State) (i : FReg) (v : Word) : (s.setF i v).userRing = s.userRing := rfl
@[simp] theorem State.pc_setF (s : State) (i : FReg) (v : Word) : (s.setF i v).pc = s.pc := rfl
@[simp] theorem State.sp_setF (s : State) (i : FReg) (v : Word) : (s.setF i v).sp = s.sp := rfl

@[simp] theorem State.getX_setFlags (s : State) (w : Word) (j : XReg) : (s.setFlags w).getX j = s.getX j := rfl
@[simp] theorem State.getF_setFlags (s : State) (w : Word) (j : FReg) : (s.setFlags w).getF j = s.getF j := rfl
@[simp] theorem State.pc_setFlags (s : State) (w : Word) : (s.setFlags w).pc = s.pc := rfl
@[simp] theorem State.sp_setFlags (s : State) (w : Word) : (s.setFlags w).sp = s.sp := rfl

@[simp] theorem State.getX_setMemmap (s : State) (w : Word) (j : XReg) : (s.setMemmap w).getX j = s.getX j := rfl
@[simp] theorem State.getF_setMemmap (s : State) (w : Word) (j : FReg) : (s.setMemmap w).getF j = s.getF j := rfl
@[simp] theorem State.flagSet_setMemmap (s : State) (w : Word) : (s.setMemmap w).flagSet = s.flagSet := rfl
@[simp] theorem State.userRing_setMemmap (s : State) (w : Word) : (s.setMemmap w).userRing = s.userRing := rfl
@[simp] theorem State.pc_setMemmap (s : State) (w : Word) : (s.setMemmap w).pc = s.pc := rfl
@[simp] theorem State.sp_setMemmap (s : State) (w : Word) : (s.setMemmap w).sp = s.sp := rfl

@[simp] theorem State.getX_setPending (s : State) (p : BitVec 8) (j : XReg) : (s.setPending p).getX j = s.getX j := rfl
@[simp] theorem State.getF_setPending (s : State) (p : BitVec 8) (j : FReg) : (s.setPending p).getF j = s.getF j := rfl
@[simp] theorem State.flagSet_setPending (s : State) (p : BitVec 8) : (s.setPending p).flagSet = s.flagSet := rfl
@[simp] theorem State.userRing_setPending (s : State) (p : BitVec 8) : (s.setPending p).userRing = s.userRing := rfl
@[simp] theorem State.pc_setPending (s : State) (p : BitVec 8) : (s.setPending p).pc = s.pc := rfl
@[simp] theorem State.sp_setPending (s : State) (p : BitVec 8) : (s.setPending p).sp = s.sp := rfl

@[simp] theorem State.getX_setHalted (s : State) (h : RunState) (j : XReg) : (s.setHalted h).getX j = s.getX j := rfl
@[simp] theorem State.getF_setHalted (s : State) (h : RunState) (j : FReg) : (s.setHalted h).getF j = s.getF j := rfl
@[simp] theorem State.flagSet_setHalted (s : State) (h : RunState) : (s.setHalted h).flagSet = s.flagSet := rfl
@[simp] theorem State.userRing_setHalted (s : State) (h : RunState) : (s.setHalted h).userRing = s.userRing := rfl
@[simp] theorem State.pc_setHalted (s : State) (h : RunState) : (s.setHalted h).pc = s.pc := rfl
@[simp] theorem State.sp_setHalted (s : State) (h : RunState) : (s.setHalted h).sp = s.sp := rfl

@[simp] theorem State.getX_setMem (s : State) (m : Memory) (j : XReg) : (s.setMem m).getX j = s.getX j := rfl
@[simp] theorem State.getF_setMem (s : State) (m : Memory) (j : FReg) : (s.setMem m).getF j = s.getF j := rfl
@[simp] theorem State.flagSet_setMem (s : State) (m : Memory) : (s.setMem m).flagSet = s.flagSet := rfl
@[simp] theorem State.userRing_setMem (s : State) (m : Memory) : (s.setMem m).userRing = s.userRing := rfl
@[simp] theorem State.pc_setMem (s : State) (m : Memory) : (s.setMem m).pc = s.pc := rfl
@[simp] theorem State.sp_setMem (s : State) (m : Memory) : (s.setMem m).sp = s.sp := rfl

@[simp] theorem State.getX_setRaises (s : State) (l : List (Option Line)) (j : XReg) : (s.setRaises l).getX j = s.getX j := rfl
@[simp] theorem State.getF_setRaises (s : State) (l : List (Option Line)) (j : FReg) : (s.setRaises l).getF j = s.getF j := rfl
@[simp] theorem State.flagSet_setRaises (s : State) (l : List (Option Line)) : (s.setRaises l).flagSet = s.flagSet := rfl
@[simp] theorem State.userRing_setRaises (s : State) (l : List (Option Line)) : (s.setRaises l).userRing = s.userRing := rfl
@[simp] theorem State.pc_setRaises (s : State) (l : List (Option Line)) : (s.setRaises l).pc = s.pc := rfl
@[simp] theorem State.sp_setRaises (s : State) (l : List (Option Line)) : (s.setRaises l).sp = s.sp := rfl

/-! ## setPc, advance, setFlagSet, and the Retire forms -/

@[simp] theorem State.setPc_f (s : State) (v : Word) : (s.setPc v).f = s.f := rfl
@[simp] theorem State.setPc_flags (s : State) (v : Word) : (s.setPc v).flags = s.flags := rfl
@[simp] theorem State.setPc_memmap (s : State) (v : Word) : (s.setPc v).memmap = s.memmap := rfl
@[simp] theorem State.setPc_pending (s : State) (v : Word) : (s.setPc v).pending = s.pending := rfl
@[simp] theorem State.setPc_halted (s : State) (v : Word) : (s.setPc v).halted = s.halted := rfl
@[simp] theorem State.setPc_mem (s : State) (v : Word) : (s.setPc v).mem = s.mem := rfl
@[simp] theorem State.setPc_raises (s : State) (v : Word) : (s.setPc v).raises = s.raises := rfl
@[simp] theorem State.getF_setPc (s : State) (v : Word) (j : FReg) : (s.setPc v).getF j = s.getF j := rfl
@[simp] theorem State.flagSet_setPc (s : State) (v : Word) : (s.setPc v).flagSet = s.flagSet := rfl

@[simp] theorem State.advance_f (s : State) : s.advance.f = s.f := rfl
@[simp] theorem State.advance_flags (s : State) : s.advance.flags = s.flags := rfl
@[simp] theorem State.advance_memmap (s : State) : s.advance.memmap = s.memmap := rfl
@[simp] theorem State.advance_pending (s : State) : s.advance.pending = s.pending := rfl
@[simp] theorem State.advance_halted (s : State) : s.advance.halted = s.halted := rfl
@[simp] theorem State.advance_mem (s : State) : s.advance.mem = s.mem := rfl
@[simp] theorem State.advance_raises (s : State) : s.advance.raises = s.raises := rfl
@[simp] theorem State.getF_advance (s : State) (j : FReg) : s.advance.getF j = s.getF j := rfl
@[simp] theorem State.flagSet_advance (s : State) : s.advance.flagSet = s.flagSet := rfl

@[simp] theorem State.setFlagSet_x (s : State) (fs : FlagSet) : (s.setFlagSet fs).x = s.x := rfl
@[simp] theorem State.setFlagSet_f (s : State) (fs : FlagSet) : (s.setFlagSet fs).f = s.f := rfl
@[simp] theorem State.setFlagSet_memmap (s : State) (fs : FlagSet) : (s.setFlagSet fs).memmap = s.memmap := rfl
@[simp] theorem State.setFlagSet_pending (s : State) (fs : FlagSet) : (s.setFlagSet fs).pending = s.pending := rfl
@[simp] theorem State.setFlagSet_halted (s : State) (fs : FlagSet) : (s.setFlagSet fs).halted = s.halted := rfl
@[simp] theorem State.setFlagSet_mem (s : State) (fs : FlagSet) : (s.setFlagSet fs).mem = s.mem := rfl
@[simp] theorem State.setFlagSet_raises (s : State) (fs : FlagSet) : (s.setFlagSet fs).raises = s.raises := rfl
@[simp] theorem State.getF_setFlagSet (s : State) (fs : FlagSet) (j : FReg) : (s.setFlagSet fs).getF j = s.getF j := rfl
@[simp] theorem State.getX_setFlagSet (s : State) (fs : FlagSet) (j : XReg) : (s.setFlagSet fs).getX j = s.getX j := rfl

@[simp] theorem State.retireX_f (s : State) (xd : XReg) (v : Word) : (s.retireX xd v).f = s.f := rfl
@[simp] theorem State.retireX_flags (s : State) (xd : XReg) (v : Word) : (s.retireX xd v).flags = s.flags := rfl
@[simp] theorem State.retireX_memmap (s : State) (xd : XReg) (v : Word) : (s.retireX xd v).memmap = s.memmap := rfl
@[simp] theorem State.retireX_pending (s : State) (xd : XReg) (v : Word) : (s.retireX xd v).pending = s.pending := rfl
@[simp] theorem State.retireX_halted (s : State) (xd : XReg) (v : Word) : (s.retireX xd v).halted = s.halted := rfl
@[simp] theorem State.retireX_mem (s : State) (xd : XReg) (v : Word) : (s.retireX xd v).mem = s.mem := rfl
@[simp] theorem State.retireX_raises (s : State) (xd : XReg) (v : Word) : (s.retireX xd v).raises = s.raises := rfl
@[simp] theorem State.getF_retireX (s : State) (xd : XReg) (v : Word) (j : FReg) : (s.retireX xd v).getF j = s.getF j := rfl
@[simp] theorem State.flagSet_retireX (s : State) (xd : XReg) (v : Word) : (s.retireX xd v).flagSet = s.flagSet := rfl

@[simp] theorem State.retireCompare_f (s : State) (res : IntResult) : (s.retireCompare res).f = s.f := rfl
@[simp] theorem State.retireCompare_memmap (s : State) (res : IntResult) : (s.retireCompare res).memmap = s.memmap := rfl
@[simp] theorem State.retireCompare_pending (s : State) (res : IntResult) : (s.retireCompare res).pending = s.pending := rfl
@[simp] theorem State.retireCompare_halted (s : State) (res : IntResult) : (s.retireCompare res).halted = s.halted := rfl
@[simp] theorem State.retireCompare_mem (s : State) (res : IntResult) : (s.retireCompare res).mem = s.mem := rfl
@[simp] theorem State.retireCompare_raises (s : State) (res : IntResult) : (s.retireCompare res).raises = s.raises := rfl
@[simp] theorem State.getF_retireCompare (s : State) (res : IntResult) (j : FReg) : (s.retireCompare res).getF j = s.getF j := rfl

@[simp] theorem State.retireInt_f (s : State) (xd : XReg) (res : IntResult) : (s.retireInt xd res).f = s.f := rfl
@[simp] theorem State.retireInt_memmap (s : State) (xd : XReg) (res : IntResult) : (s.retireInt xd res).memmap = s.memmap := rfl
@[simp] theorem State.retireInt_pending (s : State) (xd : XReg) (res : IntResult) : (s.retireInt xd res).pending = s.pending := rfl
@[simp] theorem State.retireInt_halted (s : State) (xd : XReg) (res : IntResult) : (s.retireInt xd res).halted = s.halted := rfl
@[simp] theorem State.retireInt_mem (s : State) (xd : XReg) (res : IntResult) : (s.retireInt xd res).mem = s.mem := rfl
@[simp] theorem State.retireInt_raises (s : State) (xd : XReg) (res : IntResult) : (s.retireInt xd res).raises = s.raises := rfl
@[simp] theorem State.getF_retireInt (s : State) (xd : XReg) (res : IntResult) (j : FReg) : (s.retireInt xd res).getF j = s.getF j := rfl

@[simp] theorem State.retireFloat_memmap (s : State) (fd : FReg) (b : Word) : (s.retireFloat fd b).memmap = s.memmap := rfl
@[simp] theorem State.retireFloat_pending (s : State) (fd : FReg) (b : Word) : (s.retireFloat fd b).pending = s.pending := rfl
@[simp] theorem State.retireFloat_halted (s : State) (fd : FReg) (b : Word) : (s.retireFloat fd b).halted = s.halted := rfl
@[simp] theorem State.retireFloat_mem (s : State) (fd : FReg) (b : Word) : (s.retireFloat fd b).mem = s.mem := rfl
@[simp] theorem State.retireFloat_raises (s : State) (fd : FReg) (b : Word) : (s.retireFloat fd b).raises = s.raises := rfl

@[simp] theorem State.setFlagSet_flags (s : State) (fs : FlagSet) : (s.setFlagSet fs).flags = FlagsCodec.encode fs := rfl

@[simp] theorem State.retireCompare_flags (s : State) (res : IntResult) :
    (s.retireCompare res).flags = intFlags s.flags res := rfl

@[simp] theorem State.retireInt_flags (s : State) (xd : XReg) (res : IntResult) :
    (s.retireInt xd res).flags = intFlags s.flags res := rfl

@[simp] theorem State.retireFloat_flags (s : State) (fd : FReg) (b : Word) :
    (s.retireFloat fd b).flags = floatFlags s.flags b := rfl

theorem State.getX_setPc (s : State) (v : Word) (j : XReg) :
    (s.setPc v).getX j = if 13 = j then v else s.getX j := State.getX_setX s 13 j v

@[simp] theorem State.pc_setPc (s : State) (v : Word) : (s.setPc v).pc = v := State.getX_setX_same s 13 v

theorem State.getX_advance (s : State) (j : XReg) :
    s.advance.getX j = if 13 = j then s.pc + 4#32 else s.getX j := State.getX_setPc s (s.pc + 4#32) j

/-- What Retire of one x destination leaves in every x register: the destination wins over the advance of the pc. -/
theorem State.getX_retireX (s : State) (xd : XReg) (v : Word) (j : XReg) :
    (s.retireX xd v).getX j = if xd = j then v else if 13 = j then s.pc + 4#32 else s.getX j := by
  rw [State.retireX, State.getX_setX, State.getX_advance]

theorem State.getX_retireCompare (s : State) (res : IntResult) (j : XReg) :
    (s.retireCompare res).getX j = if 13 = j then s.pc + 4#32 else s.getX j := by
  rw [State.retireCompare, State.getX_setFlags, State.getX_advance]

theorem State.getX_retireInt (s : State) (xd : XReg) (res : IntResult) (j : XReg) :
    (s.retireInt xd res).getX j = if xd = j then res.r else if 13 = j then s.pc + 4#32 else s.getX j := by
  rw [State.retireInt, State.getX_setFlags, State.getX_retireX]

theorem State.getX_retireFloat (s : State) (fd : FReg) (b : Word) (j : XReg) :
    (s.retireFloat fd b).getX j = if 13 = j then s.pc + 4#32 else s.getX j := by
  rw [State.retireFloat, State.getX_setFlags, State.getX_setF, State.getX_advance]

theorem State.getF_retireFloat (s : State) (fd : FReg) (b : Word) (j : FReg) :
    (s.retireFloat fd b).getF j = if fd = j then b else s.getF j := by
  rw [State.retireFloat, State.getF_setFlags, State.getF_setF, State.getF_advance]

end Sys2Proof.Machine
end

