-- ==== Sys2Proof/Laws/Ops.lean ====
section
/-! SUPPORT. What each shared operation of Machine/Ops.lean does to every field: the save area, trap entry, trap return,
and the little-endian bytes of a word. -/

namespace Sys2Proof.Machine

/-! ## Little-endian bytes -/

/-- The four bytes of a word give the word back (20_memory.md R64). -/
@[simp] theorem leWord_leBytes_four (v : Word) : leWord (leBytes 4 v) = v := by
  apply BitVec.eq_of_getLsbD_eq
  intro i hi
  simp only [leBytes, leWord, BitVec.getLsbD_or, BitVec.getLsbD_setWidth, BitVec.getLsbD_shiftLeft,
    BitVec.getLsbD_ushiftRight]
  interval_cases i <;> simp

/-! ## Invariants of flags after Retire -/

@[simp] theorem State.flagSet_setFlags (s : State) (w : Word) : (s.setFlags w).flagSet = FlagsCodec.decode w := rfl

@[simp] theorem State.flagSet_setFlagSet (s : State) (fs : FlagSet) : (s.setFlagSet fs).flagSet = fs := decode_encode fs

@[simp] theorem State.flagSet_retireInt (s : State) (xd : XReg) (res : IntResult) :
    (s.retireInt xd res).flagSet = s.flagSet.afterInt res := decode_intFlags s.flags res

@[simp] theorem State.flagSet_retireCompare (s : State) (res : IntResult) :
    (s.retireCompare res).flagSet = s.flagSet.afterInt res := decode_intFlags s.flags res

@[simp] theorem State.flagSet_retireFloat (s : State) (fd : FReg) (b : Word) :
    (s.retireFloat fd b).flagSet = s.flagSet.afterFloat b := decode_floatFlags s.flags b

/-! ## The save area -/

@[simp] theorem State.writeSaveArea_x (s : State) (c : Cause) (r i k : Word) : (s.writeSaveArea c r i k).x = s.x := by simp [State.writeSaveArea]
@[simp] theorem State.writeSaveArea_f (s : State) (c : Cause) (r i k : Word) : (s.writeSaveArea c r i k).f = s.f := by simp [State.writeSaveArea]
@[simp] theorem State.writeSaveArea_flags (s : State) (c : Cause) (r i k : Word) :
    (s.writeSaveArea c r i k).flags = s.flags := by simp [State.writeSaveArea]
@[simp] theorem State.writeSaveArea_memmap (s : State) (c : Cause) (r i k : Word) :
    (s.writeSaveArea c r i k).memmap = s.memmap := by simp [State.writeSaveArea]
@[simp] theorem State.writeSaveArea_pending (s : State) (c : Cause) (r i k : Word) :
    (s.writeSaveArea c r i k).pending = s.pending := by simp [State.writeSaveArea]
@[simp] theorem State.writeSaveArea_halted (s : State) (c : Cause) (r i k : Word) :
    (s.writeSaveArea c r i k).halted = s.halted := by simp [State.writeSaveArea]
@[simp] theorem State.writeSaveArea_raises (s : State) (c : Cause) (r i k : Word) :
    (s.writeSaveArea c r i k).raises = s.raises := by simp [State.writeSaveArea]

theorem State.writeSaveArea_wf (s : State) (c : Cause) (r i k : Word) (h : Memory.wf s.mem = true) :
    Memory.wf (s.writeSaveArea c r i k).mem = true :=
  State.physWrite_wf _ _ _ _ <| State.physWrite_wf _ _ _ _ <| State.physWrite_wf _ _ _ _ <| State.physWrite_wf _ _ _ _ h

/-- Bytes outside the sixteen of the save area are left alone. -/
theorem State.read_writeSaveArea_of_outside (s : State) (c : Cause) (r i k : Word) (a : Nat)
    (h : a < 0x40 ∨ 0x50 ≤ a) : Memory.read (s.writeSaveArea c r i k).mem a = Memory.read s.mem a := by
  have off (base : Nat) (hb : 0x40 ≤ base) (hb' : base ≤ 0x4C) :
      ∀ j, j < 4 → (BitVec.ofNat 32 base + BitVec.ofNat 32 j).toNat ≠ a := by
    intro j hj
    simp only [BitVec.toNat_add, BitVec.toNat_ofNat]
    omega
  rw [State.writeSaveArea,
    State.read_physWrite_of_notMem (pa := Config.saveBase + 12#32) (h := off 0x4C (by decide) (by decide)),
    State.read_physWrite_of_notMem (pa := Config.saveBase + 8#32) (h := off 0x48 (by decide) (by decide)),
    State.read_physWrite_of_notMem (pa := Config.saveBase + 4#32) (h := off 0x44 (by decide) (by decide)),
    State.read_physWrite_of_notMem (pa := Config.saveBase) (h := off 0x40 (by decide) (by decide))]

/-! ## Trap entry -/

@[simp] theorem State.trapEntry_f (s : State) (c : Cause) (r i k : Word) : (s.trapEntry c r i k).f = s.f := by simp [State.trapEntry]
@[simp] theorem State.trapEntry_memmap (s : State) (c : Cause) (r i k : Word) :
    (s.trapEntry c r i k).memmap = s.memmap := by simp [State.trapEntry]
@[simp] theorem State.trapEntry_halted (s : State) (c : Cause) (r i k : Word) :
    (s.trapEntry c r i k).halted = s.halted := by simp [State.trapEntry]
@[simp] theorem State.trapEntry_raises (s : State) (c : Cause) (r i k : Word) :
    (s.trapEntry c r i k).raises = s.raises := by simp [State.trapEntry]
@[simp] theorem State.trapEntry_mem (s : State) (c : Cause) (r i k : Word) :
    (s.trapEntry c r i k).mem = (s.writeSaveArea c r i k).mem := by simp [State.trapEntry]
@[simp] theorem State.trapEntry_pending (s : State) (c : Cause) (r i k : Word) :
    (s.trapEntry c r i k).pending = entryPending c s.pending := by simp [State.trapEntry]
@[simp] theorem State.trapEntry_flags (s : State) (c : Cause) (r i k : Word) :
    (s.trapEntry c r i k).flags = FlagsCodec.encode (entryFlags c s.flagSet) := by simp [State.trapEntry]
@[simp] theorem State.flagSet_trapEntry (s : State) (c : Cause) (r i k : Word) :
    (s.trapEntry c r i k).flagSet = entryFlags c s.flagSet := by simp [State.flagSet]
@[simp] theorem State.getF_trapEntry (s : State) (c : Cause) (r i k : Word) (j : FReg) :
    (s.trapEntry c r i k).getF j = s.getF j := by simp [State.getF]

/-- Every x register but the pc is left alone; the pc is the vector word, read after the save area is written. -/
theorem State.getX_trapEntry (s : State) (c : Cause) (r i k : Word) (j : XReg) :
    (s.trapEntry c r i k).getX j =
      if 13 = j then (s.writeSaveArea c r i k).physRead (vectorAddress c) 4 else s.getX j := by
  rw [State.trapEntry, State.getX_setPc]
  simp [State.getX, State.physRead, State.readBytes]

theorem State.pc_trapEntry (s : State) (c : Cause) (r i k : Word) :
    (s.trapEntry c r i k).pc = (s.writeSaveArea c r i k).physRead (vectorAddress c) 4 := by
  simp [State.pc, State.getX_trapEntry]

@[simp] theorem entryFlags_r (c : Cause) (fs : FlagSet) : (entryFlags c fs).r = false := by cases c <;> rfl
@[simp] theorem entryFlags_m (c : Cause) (fs : FlagSet) : (entryFlags c fs).m = false := by cases c <;> rfl
@[simp] theorem entryFlags_mask (c : Cause) (fs : FlagSet) : (entryFlags c fs).mask = 0#8 := by cases c <;> rfl

/-! ## Trap return -/

@[simp] theorem State.trapReturn_f (s : State) : s.trapReturn.f = s.f := by simp [State.trapReturn]
@[simp] theorem State.trapReturn_memmap (s : State) : s.trapReturn.memmap = s.memmap := by simp [State.trapReturn]
@[simp] theorem State.trapReturn_pending (s : State) : s.trapReturn.pending = s.pending := by simp [State.trapReturn]
@[simp] theorem State.trapReturn_halted (s : State) : s.trapReturn.halted = s.halted := by simp [State.trapReturn]
@[simp] theorem State.trapReturn_mem (s : State) : s.trapReturn.mem = s.mem := by simp [State.trapReturn]
@[simp] theorem State.trapReturn_raises (s : State) : s.trapReturn.raises = s.raises := by simp [State.trapReturn]
@[simp] theorem State.trapReturn_flags (s : State) :
    s.trapReturn.flags = codecFlags (s.physRead (Config.saveBase + 4#32) 4) := by simp [State.trapReturn]

theorem State.getX_trapReturn (s : State) (j : XReg) :
    s.trapReturn.getX j = if 13 = j then s.physRead Config.saveBase 4 else s.getX j := by
  rw [State.trapReturn, State.getX_setPc, State.getX_setFlags]

end Sys2Proof.Machine
end

