-- ==== Sys2Proof/Laws/Mmu.lean ====
section
/-! SUPPORT. What a run of translations can answer, what the accesses built on it do, and what the
privilege check can do. -/

namespace Sys2Proof.Machine

/-- A successful run of translations gives one physical address for each byte, in order. -/
theorem State.translateBytes_ok {s : State} {k : AccessKind} {va : Word} {n : Nat} {pas : List Word}
    (h : s.translateBytes k va n = .ok pas) :
    pas.length = n ∧ ∀ i (hi : i < pas.length), s.translate (va + BitVec.ofNat 32 i) k = .ok pas[i] := by
  induction n generalizing va pas with
  | zero =>
    obtain rfl : [] = pas := by simpa [State.translateBytes] using h
    simp
  | succ n ih =>
    simp only [State.translateBytes] at h
    split at h
    · cases h
    · rename_i pa hpa
      split at h
      · cases h
      · rename_i rest hrest
        obtain rfl : pa :: rest = pas := by simpa using h
        obtain ⟨hlen, hall⟩ := ih hrest
        refine ⟨by simp [hlen], fun i hi => ?_⟩
        cases i with
        | zero => simpa using hpa
        | succ j =>
          have hj := hall j (by simpa using hi)
          rwa [BitVec.add_assoc, ← BitVec.ofNat_add, Nat.add_comm 1 j] at hj

/-- A failed run of translations reports the first byte that fails, and every byte before it translates. -/
theorem State.translateBytes_error {s : State} {k : AccessKind} {va : Word} {n : Nat} {f : AccessFault}
    (h : s.translateBytes k va n = .error f) :
    f.kind = k ∧ ∃ i, i < n ∧ f.va = va + BitVec.ofNat 32 i ∧ s.translate f.va k = .error f.fault ∧
      ∀ j, j < i → ∃ pa, s.translate (va + BitVec.ofNat 32 j) k = .ok pa := by
  induction n generalizing va with
  | zero => simp [State.translateBytes] at h
  | succ n ih =>
    simp only [State.translateBytes] at h
    split at h
    · rename_i e he
      obtain rfl : AccessFault.mk e va k = f := by simpa using h
      exact ⟨rfl, 0, by omega, by simp, he, by omega⟩
    · rename_i pa hpa
      split at h
      · rename_i g hg
        obtain rfl : g = f := by simpa using h
        obtain ⟨hk, i, hi, hva, htr, hbefore⟩ := ih hg
        refine ⟨hk, i + 1, by omega, ?_, htr, fun j hj => ?_⟩
        · rw [hva, BitVec.add_assoc, ← BitVec.ofNat_add, Nat.add_comm 1 i]
        · cases j with
          | zero => exact ⟨pa, by simpa using hpa⟩
          | succ j =>
            obtain ⟨pb, hpb⟩ := hbefore j (by omega)
            exact ⟨pb, by rwa [BitVec.add_assoc, ← BitVec.ofNat_add, Nat.add_comm 1 j] at hpb⟩
      · cases h

/-- A physical read depends on memory alone. -/
theorem State.physRead_congr {s t : State} (hmem : t.mem = s.mem) (pa : Word) (n : Nat) :
    t.physRead pa n = s.physRead pa n := by
  rw [State.physRead, State.physRead, State.readBytes, State.readBytes, hmem]

/-- A translation depends on memory, memmap and the M bit alone. -/
theorem State.translate_congr {s t : State} (hmem : t.mem = s.mem) (hmap : t.memmap = s.memmap)
    (hm : t.flagSet.m = s.flagSet.m) (va : Word) (k : AccessKind) : t.translate va k = s.translate va k := by
  have h1 : t.firstLevelEntry va = s.firstLevelEntry va := by
    rw [State.firstLevelEntry, State.firstLevelEntry, State.physRead_congr hmem, hmap]
  have h2 (e : Word) : t.secondLevelEntry e va = s.secondLevelEntry e va := State.physRead_congr hmem _ _
  have hw : t.walk va k = s.walk va k := by
    simp only [State.walk, h1, h2]
  rw [State.translate, State.translate, hm, hw]

/-- A run of translations depends on memory, memmap and the M bit alone. -/
theorem State.translateBytes_congr {s t : State} (hmem : t.mem = s.mem) (hmap : t.memmap = s.memmap)
    (hm : t.flagSet.m = s.flagSet.m) (k : AccessKind) (va : Word) (n : Nat) :
    t.translateBytes k va n = s.translateBytes k va n := by
  induction n generalizing va with
  | zero => rfl
  | succ n ih => simp only [State.translateBytes, State.translate_congr hmem hmap hm, ih]

/-- A write of virtual memory changes memory alone, and keeps its canonical form. -/
theorem State.memWrite_ok {s t : State} {va v : Word} {n : Nat} (h : s.memWrite va n v = .ok t) :
    ∃ pas, s.translateBytes .write va n = .ok pas ∧ t = s.setMem (s.mem.writeAll (pas.zip (leBytes n v))) ∧
      (Memory.wf s.mem = true → Memory.wf t.mem = true) := by
  rw [State.memWrite] at h
  split at h
  · cases h
  · rename_i pas hpas
    obtain rfl : s.setMem (s.mem.writeAll (pas.zip (leBytes n v))) = t := by simpa using h
    exact ⟨pas, hpas, rfl, fun hwf => Memory.wf_writeAll _ hwf⟩

/-- What a loading instruction can do. -/
theorem loadThen_cases {s t : State} {va : Word} {n : Nat} {effect : Word → State}
    (h : loadThen s va n effect = .next t) :
    (∃ f, s.memRead va n = .error f ∧ t = s.accessFault f) ∨ (∃ v, s.memRead va n = .ok v ∧ t = effect v) := by
  rw [loadThen] at h
  split at h
  · rename_i f hf
    exact .inl ⟨f, hf, (Host.Outcome.next.inj h).symm⟩
  · rename_i v hv
    exact .inr ⟨v, hv, (Host.Outcome.next.inj h).symm⟩

/-- What a storing instruction can do. -/
theorem storeThen_cases {s t : State} {va v : Word} {n : Nat} {effect : State → State}
    (h : storeThen s va n v effect = .next t) :
    (∃ f, s.memWrite va n v = .error f ∧ t = s.accessFault f) ∨
      (∃ s', s.memWrite va n v = .ok s' ∧ t = effect s') := by
  rw [storeThen] at h
  split at h
  · rename_i f hf
    exact .inl ⟨f, hf, (Host.Outcome.next.inj h).symm⟩
  · rename_i s' hs
    exact .inr ⟨s', hs, (Host.Outcome.next.inj h).symm⟩

/-- What a pushing instruction can do: the fault, or the word below x15, x15 lowered and the jump. -/
theorem pushThenJump_cases {s t : State} {v next : Word} (h : pushThenJump s v next = .next t) :
    (∃ f, s.memWrite (s.sp - 4#32) 4 v = .error f ∧ t = s.accessFault f) ∨
      (∃ s', s.memWrite (s.sp - 4#32) 4 v = .ok s' ∧ t = (s'.setX 15 (s.sp - 4#32)).setPc next) :=
  storeThen_cases h

theorem loadThen_ok {s : State} {va : Word} {n : Nat} {v : Word} (effect : Word → State)
    (h : s.memRead va n = .ok v) : loadThen s va n effect = .next (effect v) := by rw [loadThen, h]

theorem loadThen_error {s : State} {va : Word} {n : Nat} {f : AccessFault} (effect : Word → State)
    (h : s.memRead va n = .error f) : loadThen s va n effect = .next (s.accessFault f) := by rw [loadThen, h]

theorem storeThen_ok {s s' : State} {va v : Word} {n : Nat} (effect : State → State)
    (h : s.memWrite va n v = .ok s') : storeThen s va n v effect = .next (effect s') := by rw [storeThen, h]

theorem storeThen_error {s : State} {va v : Word} {n : Nat} {f : AccessFault} (effect : State → State)
    (h : s.memWrite va n v = .error f) : storeThen s va n v effect = .next (s.accessFault f) := by
  rw [storeThen, h]

/-! ## The privilege check -/

/-- Where the fetch at x13 answers a word, PrivilegeFault records that word. -/
theorem State.privilegeFault_of_fetch {s : State} {w : Word} (h : s.fetchRead s.pc = .ok w) :
    s.privilegeFault = s.trapEntry .privilegeFault s.pc w 0#32 := by rw [State.privilegeFault, h]

/-- A failed access is a trap entry of cause 8 or 9. -/
theorem State.accessFault_trap (s : State) (f : AccessFault) :
    ∃ c info kind, 8 ≤ (causeCode c).toNat ∧ s.accessFault f = s.trapEntry c s.pc info kind :=
  ⟨mmuCause f.fault, f.va, kindCode f.kind, by cases f.fault <;> decide, rfl⟩

/-- PrivilegeFault is a trap entry of cause 8 or more, with the instruction's own address as the return address. -/
theorem State.privilegeFault_trap (s : State) :
    ∃ c info kind, 8 ≤ (causeCode c).toNat ∧ s.privilegeFault = s.trapEntry c s.pc info kind := by
  unfold State.privilegeFault
  split
  · rename_i w _
    exact ⟨.privilegeFault, w, 0#32, by decide, rfl⟩
  · exact s.accessFault_trap _

/-- What a privileged instruction can do: PrivilegeFault in the User ring, its effect in the System ring. -/
theorem systemOnly_cases {s effect t : State} (h : systemOnly s effect = .next t) :
    (s.userRing = true ∧ t = s.privilegeFault) ∨ (s.userRing = false ∧ t = effect) := by
  rw [systemOnly] at h
  split at h
  · rename_i hr
    exact .inl ⟨hr, (Host.Outcome.next.inj h).symm⟩
  · rename_i hr
    exact .inr ⟨by simpa using hr, (Host.Outcome.next.inj h).symm⟩

theorem systemOnly_user {s : State} (effect : State) (h : s.userRing = true) :
    systemOnly s effect = .next s.privilegeFault := by rw [systemOnly, if_pos h]

theorem systemOnly_system {s : State} (effect : State) (h : s.userRing = false) :
    systemOnly s effect = .next effect := by simp [systemOnly, h]

end Sys2Proof.Machine
end

