-- ==== Sys2Proof/Laws/PerInstr.lean ====
section
/-! SUPPORT. The family RowMatch, one lemma per constructor: a well-formed instruction encodes to a word of its own row
of the opcode table. -/

namespace Sys2Proof.Laws

open Sys2Proof.Machine

/-- The word of a well-formed instruction matches its row (spec/30_encoding.md R109, R110). -/
def RowMatch.Statement (i : Instr) : Prop := i.WellFormed → encode i &&& (tableRow i).2 = (tableRow i).1

theorem RowMatch.nop : Statement .nop := fun _ => by decide

theorem RowMatch.halt : Statement .halt := fun _ => by decide

theorem RowMatch.iret : Statement .iret := fun _ => by decide

theorem RowMatch.rdfl (xd : XReg) : Statement (.rdfl xd) :=
  fun _ => encodeR_mask_rd 0x04 xd

theorem RowMatch.wrfl (xs : XReg) : Statement (.wrfl xs) :=
  fun _ => encodeR_mask_rs 0x05 xs

theorem RowMatch.rdmk (xd : XReg) : Statement (.rdmk xd) :=
  fun _ => encodeR_mask_rd 0x06 xd

theorem RowMatch.wrmk (xs : XReg) : Statement (.wrmk xs) :=
  fun _ => encodeR_mask_rs 0x07 xs

theorem RowMatch.rdmm (xd : XReg) : Statement (.rdmm xd) :=
  fun _ => encodeR_mask_rd 0x08 xd

theorem RowMatch.wrmm (xs : XReg) : Statement (.wrmm xs) :=
  fun _ => encodeR_mask_rs 0x09 xs

theorem RowMatch.add (xd : XReg) (xs1 : XReg) (xs2 : XReg) : Statement (.add xd xs1 xs2) :=
  fun _ => encodeR_mask_r3 0x10 xd xs1 xs2

theorem RowMatch.sub (xd : XReg) (xs1 : XReg) (xs2 : XReg) : Statement (.sub xd xs1 xs2) :=
  fun _ => encodeR_mask_r3 0x11 xd xs1 xs2

theorem RowMatch.mul (xd : XReg) (xs1 : XReg) (xs2 : XReg) : Statement (.mul xd xs1 xs2) :=
  fun _ => encodeR_mask_r3 0x12 xd xs1 xs2

theorem RowMatch.divu (xd : XReg) (xs1 : XReg) (xs2 : XReg) : Statement (.divu xd xs1 xs2) :=
  fun _ => encodeR_mask_r3 0x13 xd xs1 xs2

theorem RowMatch.divs (xd : XReg) (xs1 : XReg) (xs2 : XReg) : Statement (.divs xd xs1 xs2) :=
  fun _ => encodeR_mask_r3 0x14 xd xs1 xs2

theorem RowMatch.remu (xd : XReg) (xs1 : XReg) (xs2 : XReg) : Statement (.remu xd xs1 xs2) :=
  fun _ => encodeR_mask_r3 0x15 xd xs1 xs2

theorem RowMatch.rems (xd : XReg) (xs1 : XReg) (xs2 : XReg) : Statement (.rems xd xs1 xs2) :=
  fun _ => encodeR_mask_r3 0x16 xd xs1 xs2

theorem RowMatch.and (xd : XReg) (xs1 : XReg) (xs2 : XReg) : Statement (.and xd xs1 xs2) :=
  fun _ => encodeR_mask_r3 0x17 xd xs1 xs2

theorem RowMatch.or (xd : XReg) (xs1 : XReg) (xs2 : XReg) : Statement (.or xd xs1 xs2) :=
  fun _ => encodeR_mask_r3 0x18 xd xs1 xs2

theorem RowMatch.xor (xd : XReg) (xs1 : XReg) (xs2 : XReg) : Statement (.xor xd xs1 xs2) :=
  fun _ => encodeR_mask_r3 0x19 xd xs1 xs2

theorem RowMatch.shl (xd : XReg) (xs1 : XReg) (xs2 : XReg) : Statement (.shl xd xs1 xs2) :=
  fun _ => encodeR_mask_r3 0x1A xd xs1 xs2

theorem RowMatch.shr (xd : XReg) (xs1 : XReg) (xs2 : XReg) : Statement (.shr xd xs1 xs2) :=
  fun _ => encodeR_mask_r3 0x1B xd xs1 xs2

theorem RowMatch.sar (xd : XReg) (xs1 : XReg) (xs2 : XReg) : Statement (.sar xd xs1 xs2) :=
  fun _ => encodeR_mask_r3 0x1C xd xs1 xs2

theorem RowMatch.cmp (xs1 : XReg) (xs2 : XReg) : Statement (.cmp xs1 xs2) :=
  fun _ => encodeR_mask_rss 0x1D xs1 xs2

theorem RowMatch.mov (xd : XReg) (xs : XReg) : Statement (.mov xd xs) :=
  fun _ => encodeR_mask_r2 0x1E xd xs

theorem RowMatch.not (xd : XReg) (xs : XReg) : Statement (.not xd xs) :=
  fun _ => encodeR_mask_r2 0x1F xd xs

theorem RowMatch.addi (xd : XReg) (xs : XReg) (imm : BitVec 16) : Statement (.addi xd xs imm) :=
  fun _ => encodeI_mask 0x20 xd xs imm

theorem RowMatch.andi (xd : XReg) (xs : XReg) (imm : BitVec 16) : Statement (.andi xd xs imm) :=
  fun _ => encodeI_mask 0x21 xd xs imm

theorem RowMatch.ori (xd : XReg) (xs : XReg) (imm : BitVec 16) : Statement (.ori xd xs imm) :=
  fun _ => encodeI_mask 0x22 xd xs imm

theorem RowMatch.xori (xd : XReg) (xs : XReg) (imm : BitVec 16) : Statement (.xori xd xs imm) :=
  fun _ => encodeI_mask 0x23 xd xs imm

theorem RowMatch.shli (xd : XReg) (xs : XReg) (imm : BitVec 16) : Statement (.shli xd xs imm) :=
  fun h => encodeI_mask_shift 0x24 xd xs imm h

theorem RowMatch.shri (xd : XReg) (xs : XReg) (imm : BitVec 16) : Statement (.shri xd xs imm) :=
  fun h => encodeI_mask_shift 0x25 xd xs imm h

theorem RowMatch.sari (xd : XReg) (xs : XReg) (imm : BitVec 16) : Statement (.sari xd xs imm) :=
  fun h => encodeI_mask_shift 0x26 xd xs imm h

theorem RowMatch.cmpi (xs : XReg) (imm : BitVec 16) : Statement (.cmpi xs imm) :=
  fun _ => encodeI_mask_rd0 0x27 xs imm

theorem RowMatch.lui (xd : XReg) (imm : BitVec 16) : Statement (.lui xd imm) :=
  fun _ => encodeI_mask_rs0 0x28 xd imm

theorem RowMatch.movi (xd : XReg) (imm : BitVec 16) : Statement (.movi xd imm) :=
  fun _ => encodeI_mask_rs0 0x29 xd imm

theorem RowMatch.ldw (xt : XReg) (xs : XReg) (imm : BitVec 16) : Statement (.ldw xt xs imm) :=
  fun _ => encodeI_mask 0x30 xt xs imm

theorem RowMatch.ldh (xt : XReg) (xs : XReg) (imm : BitVec 16) : Statement (.ldh xt xs imm) :=
  fun _ => encodeI_mask 0x31 xt xs imm

theorem RowMatch.ldhs (xt : XReg) (xs : XReg) (imm : BitVec 16) : Statement (.ldhs xt xs imm) :=
  fun _ => encodeI_mask 0x32 xt xs imm

theorem RowMatch.ldb (xt : XReg) (xs : XReg) (imm : BitVec 16) : Statement (.ldb xt xs imm) :=
  fun _ => encodeI_mask 0x33 xt xs imm

theorem RowMatch.ldbs (xt : XReg) (xs : XReg) (imm : BitVec 16) : Statement (.ldbs xt xs imm) :=
  fun _ => encodeI_mask 0x34 xt xs imm

theorem RowMatch.stw (xt : XReg) (xs : XReg) (imm : BitVec 16) : Statement (.stw xt xs imm) :=
  fun _ => encodeI_mask 0x35 xt xs imm

theorem RowMatch.sth (xt : XReg) (xs : XReg) (imm : BitVec 16) : Statement (.sth xt xs imm) :=
  fun _ => encodeI_mask 0x36 xt xs imm

theorem RowMatch.stb (xt : XReg) (xs : XReg) (imm : BitVec 16) : Statement (.stb xt xs imm) :=
  fun _ => encodeI_mask 0x37 xt xs imm

theorem RowMatch.fld (ft : FReg) (xs : XReg) (imm : BitVec 16) : Statement (.fld ft xs imm) :=
  fun _ => encodeI_mask 0x38 ft xs imm

theorem RowMatch.fst (ft : FReg) (xs : XReg) (imm : BitVec 16) : Statement (.fst ft xs imm) :=
  fun _ => encodeI_mask 0x39 ft xs imm

theorem RowMatch.push (xs : XReg) : Statement (.push xs) :=
  fun _ => encodeR_mask_rs 0x3A xs

theorem RowMatch.pop (xd : XReg) : Statement (.pop xd) :=
  fun _ => encodeR_mask_rd 0x3B xd

theorem RowMatch.bal (imm : BitVec 19) : Statement (.bal imm) :=
  fun _ => encodeB_mask 0 imm

theorem RowMatch.beq (imm : BitVec 19) : Statement (.beq imm) :=
  fun _ => encodeB_mask 1 imm

theorem RowMatch.bne (imm : BitVec 19) : Statement (.bne imm) :=
  fun _ => encodeB_mask 2 imm

theorem RowMatch.bcs (imm : BitVec 19) : Statement (.bcs imm) :=
  fun _ => encodeB_mask 3 imm

theorem RowMatch.bcc (imm : BitVec 19) : Statement (.bcc imm) :=
  fun _ => encodeB_mask 4 imm

theorem RowMatch.bmi (imm : BitVec 19) : Statement (.bmi imm) :=
  fun _ => encodeB_mask 5 imm

theorem RowMatch.bpl (imm : BitVec 19) : Statement (.bpl imm) :=
  fun _ => encodeB_mask 6 imm

theorem RowMatch.bvs (imm : BitVec 19) : Statement (.bvs imm) :=
  fun _ => encodeB_mask 7 imm

theorem RowMatch.bvc (imm : BitVec 19) : Statement (.bvc imm) :=
  fun _ => encodeB_mask 8 imm

theorem RowMatch.bhi (imm : BitVec 19) : Statement (.bhi imm) :=
  fun _ => encodeB_mask 9 imm

theorem RowMatch.bls (imm : BitVec 19) : Statement (.bls imm) :=
  fun _ => encodeB_mask 10 imm

theorem RowMatch.bge (imm : BitVec 19) : Statement (.bge imm) :=
  fun _ => encodeB_mask 11 imm

theorem RowMatch.blt (imm : BitVec 19) : Statement (.blt imm) :=
  fun _ => encodeB_mask 12 imm

theorem RowMatch.bgt (imm : BitVec 19) : Statement (.bgt imm) :=
  fun _ => encodeB_mask 13 imm

theorem RowMatch.ble (imm : BitVec 19) : Statement (.ble imm) :=
  fun _ => encodeB_mask 14 imm

theorem RowMatch.bod (imm : BitVec 19) : Statement (.bod imm) :=
  fun _ => encodeB_mask 15 imm

theorem RowMatch.bev (imm : BitVec 19) : Statement (.bev imm) :=
  fun _ => encodeB_mask 16 imm

theorem RowMatch.bnan (imm : BitVec 19) : Statement (.bnan imm) :=
  fun _ => encodeB_mask 17 imm

theorem RowMatch.binf (imm : BitVec 19) : Statement (.binf imm) :=
  fun _ => encodeB_mask 18 imm

theorem RowMatch.jmp (imm : BitVec 24) : Statement (.jmp imm) :=
  fun _ => encodeJ_mask 0x41 imm

theorem RowMatch.call (imm : BitVec 24) : Statement (.call imm) :=
  fun _ => encodeJ_mask 0x42 imm

theorem RowMatch.jmpr (xs : XReg) : Statement (.jmpr xs) :=
  fun _ => encodeR_mask_rs 0x43 xs

theorem RowMatch.callr (xs : XReg) : Statement (.callr xs) :=
  fun _ => encodeR_mask_rs 0x44 xs

theorem RowMatch.ret : Statement .ret := fun _ => by decide

theorem RowMatch.fadd (fd : FReg) (fs1 : FReg) (fs2 : FReg) : Statement (.fadd fd fs1 fs2) :=
  fun _ => encodeR_mask_r3 0x50 fd fs1 fs2

theorem RowMatch.fsub (fd : FReg) (fs1 : FReg) (fs2 : FReg) : Statement (.fsub fd fs1 fs2) :=
  fun _ => encodeR_mask_r3 0x51 fd fs1 fs2

theorem RowMatch.fmul (fd : FReg) (fs1 : FReg) (fs2 : FReg) : Statement (.fmul fd fs1 fs2) :=
  fun _ => encodeR_mask_r3 0x52 fd fs1 fs2

theorem RowMatch.fdiv (fd : FReg) (fs1 : FReg) (fs2 : FReg) : Statement (.fdiv fd fs1 fs2) :=
  fun _ => encodeR_mask_r3 0x53 fd fs1 fs2

theorem RowMatch.fmov (fd : FReg) (fs : FReg) : Statement (.fmov fd fs) :=
  fun _ => encodeR_mask_r2 0x54 fd fs

theorem RowMatch.itof (fd : FReg) (xs : XReg) : Statement (.itof fd xs) :=
  fun _ => encodeR_mask_r2 0x55 fd xs

theorem RowMatch.ftoi (xd : XReg) (fs : FReg) : Statement (.ftoi xd fs) :=
  fun _ => encodeR_mask_r2 0x56 xd fs

theorem RowMatch.movxf (fd : FReg) (xs : XReg) : Statement (.movxf fd xs) :=
  fun _ => encodeR_mask_r2 0x57 fd xs

theorem RowMatch.movfx (xd : XReg) (fs : FReg) : Statement (.movfx xd fs) :=
  fun _ => encodeR_mask_r2 0x58 xd fs

theorem RowMatch.feq (xd : XReg) (fs1 : FReg) (fs2 : FReg) : Statement (.feq xd fs1 fs2) :=
  fun _ => encodeR_mask_r3 0x59 xd fs1 fs2

theorem RowMatch.flt (xd : XReg) (fs1 : FReg) (fs2 : FReg) : Statement (.flt xd fs1 fs2) :=
  fun _ => encodeR_mask_r3 0x5A xd fs1 fs2

theorem RowMatch.fle (xd : XReg) (fs1 : FReg) (fs2 : FReg) : Statement (.fle xd fs1 fs2) :=
  fun _ => encodeR_mask_r3 0x5B xd fs1 fs2

end Sys2Proof.Laws
end

