-- ==== Sys2Proof/Laws/Step.lean ====
section
/-! SUPPORT. What one checkpoint and one step can do, said once. -/

namespace Sys2Proof.Machine

/-- What the checkpoint can do: nothing, or entry to an eligible line of a running core. -/
theorem State.checkpoint_cases (s : State) :
    s.checkpoint = s ∨
      ∃ l, s.halted = .running ∧ s.eligibleLine = some l ∧ s.checkpoint = s.trapEntry (.line l) s.pc 0#32 0#32 := by
  cases hh : s.halted with
  | running =>
    cases he : s.eligibleLine with
    | none => left; simp [State.checkpoint, hh, he]
    | some l => right; exact ⟨l, rfl, rfl, by simp [State.checkpoint, hh, he]⟩
  | haltExecuted a => left; simp [State.checkpoint, hh]
  | invalidOpcode a w => left; simp [State.checkpoint, hh]

/-- An eligible line is pending and unmasked. -/
theorem State.eligibleLine_some {s : State} {l : Line} (h : s.eligibleLine = some l) :
    s.pending.getLsbD l.val = true ∧ s.flagSet.mask.getLsbD l.val = true := by
  have := List.find?_some h
  simp only [State.lineState, beq_iff_eq] at this
  split at this
  · rename_i hp
    simp only [if_true] at this
    split at this
    · rename_i hm; exact ⟨hp, hm⟩
    · cases this
  · cases this

/-- No line is eligible while every line is masked. -/
theorem State.eligibleLine_of_mask_zero {s : State} (h : s.flagSet.mask = 0#8) : s.eligibleLine = none := by
  cases he : s.eligibleLine with
  | none => rfl
  | some l => have := (State.eligibleLine_some he).2; simp [h] at this

/-! ## The state a cycle latches into, and the state a step begins with -/

@[simp] theorem State.latch_x (s : State) (r : Option Line) : (s.latch r).x = s.x := by
  unfold State.latch; split <;> rfl
@[simp] theorem State.latch_f (s : State) (r : Option Line) : (s.latch r).f = s.f := by
  unfold State.latch; split <;> rfl
@[simp] theorem State.latch_flags (s : State) (r : Option Line) : (s.latch r).flags = s.flags := by
  unfold State.latch; split <;> rfl
@[simp] theorem State.latch_memmap (s : State) (r : Option Line) : (s.latch r).memmap = s.memmap := by
  unfold State.latch; split <;> rfl
@[simp] theorem State.latch_halted (s : State) (r : Option Line) : (s.latch r).halted = s.halted := by
  unfold State.latch; split <;> rfl
@[simp] theorem State.latch_mem (s : State) (r : Option Line) : (s.latch r).mem = s.mem := by
  unfold State.latch; split <;> rfl
@[simp] theorem State.latch_raises (s : State) (r : Option Line) : (s.latch r).raises = s.raises := by
  unfold State.latch; split <;> rfl
@[simp] theorem State.latch_flagSet (s : State) (r : Option Line) : (s.latch r).flagSet = s.flagSet := by
  simp [State.flagSet]
@[simp] theorem State.latch_pc (s : State) (r : Option Line) : (s.latch r).pc = s.pc := by
  simp [State.pc, State.getX]

@[simp] theorem State.begun_x (s : State) : s.begun.x = s.x := by
  unfold State.begun State.latch; split <;> rfl
@[simp] theorem State.begun_f (s : State) : s.begun.f = s.f := by
  unfold State.begun State.latch; split <;> rfl
@[simp] theorem State.begun_flags (s : State) : s.begun.flags = s.flags := by
  unfold State.begun State.latch; split <;> rfl
@[simp] theorem State.begun_memmap (s : State) : s.begun.memmap = s.memmap := by
  unfold State.begun State.latch; split <;> rfl
@[simp] theorem State.begun_halted (s : State) : s.begun.halted = s.halted := by
  unfold State.begun State.latch; split <;> rfl
@[simp] theorem State.begun_mem (s : State) : s.begun.mem = s.mem := by
  unfold State.begun State.latch; split <;> rfl
@[simp] theorem State.begun_raises (s : State) : s.begun.raises = s.raises.tail := by
  unfold State.begun State.latch; split <;> rfl
@[simp] theorem State.begun_flagSet (s : State) : s.begun.flagSet = s.flagSet := by
  simp [State.flagSet]
@[simp] theorem State.begun_pc (s : State) : s.begun.pc = s.pc := by
  simp [State.pc, State.getX]

/-- What one step can do: a halted core stays; a running core takes a fetch fault, or halts on an invalid word, or runs
the decoded instruction and then the checkpoint. -/
theorem step_cases {s t : State} (h : step s = .next t) :
    (s.halted ≠ .running ∧ t = s) ∨
    (s.halted = .running ∧ ∃ f, s.begun.fetch = .error f ∧ t = s.begun.accessFault f) ∨
    (s.halted = .running ∧ ∃ w, s.begun.fetch = .ok w ∧ decode w = none ∧ t = s.begun.haltInvalid w) ∨
    (s.halted = .running ∧ ∃ w i u, s.begun.fetch = .ok w ∧ decode w = some i ∧ exec i s.begun = .next u ∧
      t = u.checkpoint) := by
  rw [step, scheduledCycle] at h
  cases hh : s.halted with
  | running =>
    have hc : s.consumeRaise.halted = .running := hh
    simp only [hh, cycle, hc] at h
    change fetchAndExecute decode s.begun = .next t at h
    rw [fetchAndExecute] at h
    right
    cases hf : s.begun.fetch with
    | error f =>
      simp only [hf] at h
      exact .inl ⟨rfl, f, rfl, (Host.Outcome.next.inj h).symm⟩
    | ok w =>
      simp only [hf] at h
      cases hd : decode w with
      | none =>
        simp only [hd] at h
        exact .inr (.inl ⟨rfl, w, rfl, hd, (Host.Outcome.next.inj h).symm⟩)
      | some i =>
        simp only [hd] at h
        cases he : exec i s.begun with
        | next u =>
          simp only [he, finish] at h
          exact .inr (.inr ⟨rfl, w, i, u, rfl, hd, he, (Host.Outcome.next.inj h).symm⟩)
        | fault r => cases r
        | refused r => simp [he, finish] at h
  | haltExecuted a =>
    simp only [hh] at h
    exact .inl ⟨by simp, (Host.Outcome.next.inj h).symm⟩
  | invalidOpcode a w =>
    simp only [hh] at h
    exact .inl ⟨by simp, (Host.Outcome.next.inj h).symm⟩

end Sys2Proof.Machine
end

