-- ==== Sys2Proof/Tests/Slice0.lean ====
section
/-! SUPPORT. Tests: ill-formed terms refused, words of the spec decoded, one-step vectors of spec/95_test_vectors.md, and
one witness for the hypotheses of each statement. Every expected value is the spec's. -/

namespace Sys2Proof.Tests

open Sys2Proof Sys2Proof.Machine

/-! ## Ill-formed terms -/

theorem test_shli_amount_too_large : (Instr.shli 3 1 32).wf = false := by decide
theorem test_shri_field_bit_set : (Instr.shri 3 1 0x8000).wf = false := by decide
theorem test_sari_field_bit_set : (Instr.sari 3 1 0x0040).wf = false := by decide
theorem test_shli_largest_amount : (Instr.shli 15 13 31).wf = true := by decide

/-! ## Words the spec writes out, and the instructions they stand for

The words are those of spec/30_encoding.md R116, of the rules' own examples and of spec/95_test_vectors.md. -/

theorem test_decode_nop : decode 0x01000000 = some (.nop) := by decide
theorem test_decode_halt : decode 0x02000000 = some (.halt) := by decide
theorem test_decode_iret : decode 0x03000000 = some (.iret) := by decide
theorem test_decode_rdfl : decode 0x04B00000 = some (.rdfl 11) := by decide
theorem test_decode_wrfl : decode 0x05020000 = some (.wrfl 2) := by decide
theorem test_decode_rdmk : decode 0x06100000 = some (.rdmk 1) := by decide
theorem test_decode_wrmk : decode 0x07020000 = some (.wrmk 2) := by decide
theorem test_decode_rdmm : decode 0x08200000 = some (.rdmm 2) := by decide
theorem test_decode_wrmm : decode 0x09010000 = some (.wrmm 1) := by decide
theorem test_decode_add : decode 0x10312000 = some (.add 3 1 2) := by decide
theorem test_decode_sub : decode 0x11312000 = some (.sub 3 1 2) := by decide
theorem test_decode_mul : decode 0x12312000 = some (.mul 3 1 2) := by decide
theorem test_decode_divu : decode 0x13312000 = some (.divu 3 1 2) := by decide
theorem test_decode_divs : decode 0x14312000 = some (.divs 3 1 2) := by decide
theorem test_decode_remu : decode 0x15312000 = some (.remu 3 1 2) := by decide
theorem test_decode_rems : decode 0x16312000 = some (.rems 3 1 2) := by decide
theorem test_decode_and : decode 0x17312000 = some (.and 3 1 2) := by decide
theorem test_decode_or : decode 0x18312000 = some (.or 3 1 2) := by decide
theorem test_decode_xor : decode 0x19312000 = some (.xor 3 1 2) := by decide
theorem test_decode_shl : decode 0x1A312000 = some (.shl 3 1 2) := by decide
theorem test_decode_shr : decode 0x1B312000 = some (.shr 3 1 2) := by decide
theorem test_decode_sar : decode 0x1C312000 = some (.sar 3 1 2) := by decide
theorem test_decode_cmp : decode 0x1D012000 = some (.cmp 1 2) := by decide
theorem test_decode_mov : decode 0x1E310000 = some (.mov 3 1) := by decide
theorem test_decode_not : decode 0x1F310000 = some (.not 3 1) := by decide
theorem test_decode_addi : decode 0x2022FFFF = some (.addi 2 2 0xFFFF) := by decide
theorem test_decode_andi : decode 0x2131FFFF = some (.andi 3 1 0xFFFF) := by decide
theorem test_decode_ori : decode 0x22318000 = some (.ori 3 1 0x8000) := by decide
theorem test_decode_xori : decode 0x2331FFFF = some (.xori 3 1 0xFFFF) := by decide
theorem test_decode_shli : decode 0x24310004 = some (.shli 3 1 4) := by decide
theorem test_decode_shri : decode 0x25310004 = some (.shri 3 1 4) := by decide
theorem test_decode_sari : decode 0x26310004 = some (.sari 3 1 4) := by decide
theorem test_decode_cmpi : decode 0x2701FFFF = some (.cmpi 1 0xFFFF) := by decide
theorem test_decode_lui : decode 0x28308000 = some (.lui 3 0x8000) := by decide
theorem test_decode_movi : decode 0x2920000A = some (.movi 2 10) := by decide
theorem test_decode_ldw : decode 0x3043FFFC = some (.ldw 4 3 0xFFFC) := by decide
theorem test_decode_ldh : decode 0x31630000 = some (.ldh 6 3 0) := by decide
theorem test_decode_ldhs : decode 0x32630000 = some (.ldhs 6 3 0) := by decide
theorem test_decode_ldb : decode 0x33530001 = some (.ldb 5 3 1) := by decide
theorem test_decode_ldbs : decode 0x34530004 = some (.ldbs 5 3 4) := by decide
theorem test_decode_stw : decode 0x354D0000 = some (.stw 4 13 0) := by decide
theorem test_decode_sth : decode 0x36130006 = some (.sth 1 3 6) := by decide
theorem test_decode_stb : decode 0x37430004 = some (.stb 4 3 4) := by decide
theorem test_decode_fld : decode 0x38210000 = some (.fld 2 1 0) := by decide
theorem test_decode_fst : decode 0x39210004 = some (.fst 2 1 4) := by decide
theorem test_decode_push : decode 0x3A010000 = some (.push 1) := by decide
theorem test_decode_pop : decode 0x3B200000 = some (.pop 2) := by decide
theorem test_decode_bal : decode 0x40040000 = some (.bal 0x40000) := by decide
theorem test_decode_beq : decode 0x400FFFFE = some (.beq 0x7FFFE) := by decide
theorem test_decode_bne : decode 0x4017FFFE = some (.bne 0x7FFFE) := by decide
theorem test_decode_bcs : decode 0x401FFFFE = some (.bcs 0x7FFFE) := by decide
theorem test_decode_bcc : decode 0x4027FFFE = some (.bcc 0x7FFFE) := by decide
theorem test_decode_bmi : decode 0x402FFFFE = some (.bmi 0x7FFFE) := by decide
theorem test_decode_bpl : decode 0x4037FFFE = some (.bpl 0x7FFFE) := by decide
theorem test_decode_bvs : decode 0x403FFFFE = some (.bvs 0x7FFFE) := by decide
theorem test_decode_bvc : decode 0x4047FFFE = some (.bvc 0x7FFFE) := by decide
theorem test_decode_bhi : decode 0x404FFFFE = some (.bhi 0x7FFFE) := by decide
theorem test_decode_bls : decode 0x4057FFFE = some (.bls 0x7FFFE) := by decide
theorem test_decode_bge : decode 0x405FFFFE = some (.bge 0x7FFFE) := by decide
theorem test_decode_blt : decode 0x4067FFFE = some (.blt 0x7FFFE) := by decide
theorem test_decode_bgt : decode 0x406FFFFE = some (.bgt 0x7FFFE) := by decide
theorem test_decode_ble : decode 0x4077FFFE = some (.ble 0x7FFFE) := by decide
theorem test_decode_bod : decode 0x407FFFFE = some (.bod 0x7FFFE) := by decide
theorem test_decode_bev : decode 0x4087FFFE = some (.bev 0x7FFFE) := by decide
theorem test_decode_bnan : decode 0x408FFFFE = some (.bnan 0x7FFFE) := by decide
theorem test_decode_binf : decode 0x4097FFFE = some (.binf 0x7FFFE) := by decide
theorem test_decode_jmp : decode 0x41FFFFBF = some (.jmp 0xFFFFBF) := by decide
theorem test_decode_call : decode 0x42000004 = some (.call 4) := by decide
theorem test_decode_jmpr : decode 0x43010000 = some (.jmpr 1) := by decide
theorem test_decode_callr : decode 0x440F0000 = some (.callr 15) := by decide
theorem test_decode_ret : decode 0x45000000 = some (.ret) := by decide
theorem test_decode_fadd : decode 0x50312000 = some (.fadd 3 1 2) := by decide
theorem test_decode_fsub : decode 0x51312000 = some (.fsub 3 1 2) := by decide
theorem test_decode_fmul : decode 0x52312000 = some (.fmul 3 1 2) := by decide
theorem test_decode_fdiv : decode 0x53312000 = some (.fdiv 3 1 2) := by decide
theorem test_decode_fmov : decode 0x54310000 = some (.fmov 3 1) := by decide
theorem test_decode_itof : decode 0x55110000 = some (.itof 1 1) := by decide
theorem test_decode_ftoi : decode 0x56330000 = some (.ftoi 3 3) := by decide
theorem test_decode_movxf : decode 0x57310000 = some (.movxf 3 1) := by decide
theorem test_decode_movfx : decode 0x58310000 = some (.movfx 3 1) := by decide
theorem test_decode_feq : decode 0x59312000 = some (.feq 3 1 2) := by decide
theorem test_decode_flt : decode 0x5A312000 = some (.flt 3 1 2) := by decide
theorem test_decode_fle : decode 0x5B312000 = some (.fle 3 1 2) := by decide

/-- 20_memory.md R63: the first byte is the least significant. -/
theorem test_decode_bytes : decodeBytes [0x04, 0x00, 0x00, 0x42, 0xAA] = .ok (.call 4, [0xAA]) := by decide
theorem test_decode_table_word : decodeTableWord 32 0x42000004 = some (.call 4) := by decide
theorem test_decode_too_short : decodeBytes [0x00, 0x00, 0x42] = .error .tooShort := by decide
theorem test_reject_zero_word : decodeWord 0 = .error (.unassignedOpcode 0) := by decide
theorem test_reject_reserved_bits : decodeWord 0x01000001 = .error (.reservedBitsSet 0x01000001) := by decide
theorem test_reject_shift_field : decodeWord 0x24310020 = .error (.reservedBitsSet 0x24310020) := by decide
theorem test_reject_condition : decodeWord 0x40980000 = .error (.unassignedCondition 19) := by decide
theorem test_encode_stw : encode (.stw 4 13 0) = 0x354D0000 := by decide
theorem test_encode_bne : encode (.bne 0x7FFFE) = 0x4017FFFE := by decide

/-! ## One step -/

/-- A machine at `pc` with an instruction word there, flags, x and f registers and words of memory; all else is 0. -/
def machine (pc word flags : Word) (xs fs : List (Fin 16 × Word)) (ws : List (Word × Word)) : State :=
  let s := ((State.reset.setPc pc).setFlags flags).physWrite pc 4 word
  let s := xs.foldl (fun t e => t.setX e.1 e.2) s
  let s := fs.foldl (fun t e => t.setF e.1 e.2) s
  ws.foldl (fun t e => t.physWrite e.1 4 e.2) s

/-- The start of most vectors: pc = 0x100 and flags = 0. -/
def at100 (word : Word) (xs fs : List (Fin 16 × Word)) : State := machine 0x100 word 0 xs fs []

/-- The vector table V of spec/95_test_vectors.md. -/
def withVectors (s : State) : State :=
  (List.range 11).foldl (fun t c => t.physWrite (BitVec.ofNat 32 (4 * c)) 4 (BitVec.ofNat 32 (0x400 + 0x10 * c))) s

/-- Table T of spec/95_test_vectors.md section 8. -/
def withTables (s : State) : State :=
  [((0x1000 : Word), (0x2000 : Word)), (0x2000, 0xD0000000), (0x2004, 0xE0030000), (0x2008, 0x70040000),
    (0x200C, 0xA0050000), (0x2010, 0xC0060000)].foldl (fun t e => t.physWrite e.1 4 e.2) (s.setMemmap 0x1000)

/-- The four words of the save area. -/
def saveArea (s : State) : List Word := [s.physRead 0x40 4, s.physRead 0x44 4, s.physRead 0x48 4, s.physRead 0x4C 4]

/-- One step answers a next state of which `p` holds. -/
def after (s : State) (p : State → Bool) : Bool :=
  match step s with
  | .next t => p t
  | .fault _ | .refused _ => false

/-! ### Integer and float instructions -/

/-- spec/95_test_vectors.md I1: `add x3, x1, x2`. -/
theorem test_add_I1 : after (at100 0x10312000 [(1, 0x7FFFFFFF), (2, 0x00000001)] [])
    (fun t => t.getX 3 == 0x80000000 && t.flags == 0x5000 && t.pc == 0x104) = true := by decide

/-- spec/95_test_vectors.md I3: `add x3, x1, x2`. -/
theorem test_add_I3 : after (at100 0x10312000 [(1, 0x80000000), (2, 0x80000000)] [])
    (fun t => t.getX 3 == 0x00000000 && t.flags == 0x3800 && t.pc == 0x104) = true := by decide

/-- spec/95_test_vectors.md I6: `sub x3, x1, x2`. -/
theorem test_sub_I6 : after (at100 0x11312000 [(1, 0x80000000), (2, 0x00000001)] [])
    (fun t => t.getX 3 == 0x7FFFFFFF && t.flags == 0x9000 && t.pc == 0x104) = true := by decide

/-- spec/95_test_vectors.md I8: `sub x3, x1, x2`. -/
theorem test_sub_I8 : after (at100 0x11312000 [(1, 0x7FFFFFFF), (2, 0xFFFFFFFF)] [])
    (fun t => t.getX 3 == 0x80000000 && t.flags == 0x7000 && t.pc == 0x104) = true := by decide

/-- spec/95_test_vectors.md I11: `mul x3, x1, x2`. -/
theorem test_mul_I11 : after (at100 0x12312000 [(1, 0x40000000), (2, 0x00000002)] [])
    (fun t => t.getX 3 == 0x80000000 && t.flags == 0x5000 && t.pc == 0x104) = true := by decide

/-- spec/95_test_vectors.md I13: `mul x3, x1, x2`. -/
theorem test_mul_I13 : after (at100 0x12312000 [(1, 0xFFFFFFFE), (2, 0x00000003)] [])
    (fun t => t.getX 3 == 0xFFFFFFFA && t.flags == 0x6000 && t.pc == 0x104) = true := by decide

/-- spec/95_test_vectors.md I15: `divu x3, x1, x2`. -/
theorem test_divu_I15 : after (at100 0x13312000 [(1, 0x00000007), (2, 0x00000000)] [])
    (fun t => t.getX 3 == 0xFFFFFFFF && t.flags == 0xD000 && t.pc == 0x104) = true := by decide

/-- spec/95_test_vectors.md I16: `divu x3, x1, x2`. -/
theorem test_divu_I16 : after (at100 0x13312000 [(1, 0xFFFFFFFF), (2, 0x00000010)] [])
    (fun t => t.getX 3 == 0x0FFFFFFF && t.flags == 0x8000 && t.pc == 0x104) = true := by decide

/-- spec/95_test_vectors.md I18: `divs x3, x1, x2`. -/
theorem test_divs_I18 : after (at100 0x14312000 [(1, 0x00000007), (2, 0xFFFFFFFE)] [])
    (fun t => t.getX 3 == 0xFFFFFFFD && t.flags == 0xC000 && t.pc == 0x104) = true := by decide

/-- spec/95_test_vectors.md I21: `divs x3, x1, x2`. -/
theorem test_divs_I21 : after (at100 0x14312000 [(1, 0x80000000), (2, 0xFFFFFFFF)] [])
    (fun t => t.getX 3 == 0x80000000 && t.flags == 0x5000 && t.pc == 0x104) = true := by decide

/-- spec/95_test_vectors.md I22: `remu x3, x1, x2`. -/
theorem test_remu_I22 : after (at100 0x15312000 [(1, 0x00000007), (2, 0x00000002)] [])
    (fun t => t.getX 3 == 0x00000001 && t.flags == 0x8000 && t.pc == 0x104) = true := by decide

/-- spec/95_test_vectors.md I23: `remu x3, x1, x2`. -/
theorem test_remu_I23 : after (at100 0x15312000 [(1, 0x00000007), (2, 0x00000000)] [])
    (fun t => t.getX 3 == 0x00000007 && t.flags == 0x9000 && t.pc == 0x104) = true := by decide

/-- spec/95_test_vectors.md I25: `rems x3, x1, x2`. -/
theorem test_rems_I25 : after (at100 0x16312000 [(1, 0x00000007), (2, 0xFFFFFFFE)] [])
    (fun t => t.getX 3 == 0x00000001 && t.flags == 0x8000 && t.pc == 0x104) = true := by decide

/-- spec/95_test_vectors.md I28: `rems x3, x1, x2`. -/
theorem test_rems_I28 : after (at100 0x16312000 [(1, 0x80000000), (2, 0xFFFFFFFF)] [])
    (fun t => t.getX 3 == 0x00000000 && t.flags == 0x1800 && t.pc == 0x104) = true := by decide

/-- spec/95_test_vectors.md I29: `and x3, x1, x2`. -/
theorem test_and_I29 : after (at100 0x17312000 [(1, 0x0000F0F0), (2, 0x0000FF00)] [])
    (fun t => t.getX 3 == 0x0000F000 && t.flags == 0x0 && t.pc == 0x104) = true := by decide

/-- spec/95_test_vectors.md I30: `or x3, x1, x2`. -/
theorem test_or_I30 : after (at100 0x18312000 [(1, 0x0000F0F0), (2, 0x00000F0F)] [])
    (fun t => t.getX 3 == 0x0000FFFF && t.flags == 0x8000 && t.pc == 0x104) = true := by decide

/-- spec/95_test_vectors.md I31: `xor x3, x1, x2`. -/
theorem test_xor_I31 : after (at100 0x19312000 [(1, 0x0000FFFF), (2, 0x0000FFFF)] [])
    (fun t => t.getX 3 == 0x00000000 && t.flags == 0x800 && t.pc == 0x104) = true := by decide

/-- spec/95_test_vectors.md I32: `shl x3, x1, x2`. -/
theorem test_shl_I32 : after (at100 0x1A312000 [(1, 0x80000001), (2, 0x00000001)] [])
    (fun t => t.getX 3 == 0x00000002 && t.flags == 0x2000 && t.pc == 0x104) = true := by decide

/-- spec/95_test_vectors.md I34: `shl x3, x1, x2`. -/
theorem test_shl_I34 : after (at100 0x1A312000 [(1, 0x00000001), (2, 0x00000020)] [])
    (fun t => t.getX 3 == 0x00000001 && t.flags == 0x8000 && t.pc == 0x104) = true := by decide

/-- spec/95_test_vectors.md I36: `shr x3, x1, x2`. -/
theorem test_shr_I36 : after (at100 0x1B312000 [(1, 0x80000001), (2, 0x00000001)] [])
    (fun t => t.getX 3 == 0x40000000 && t.flags == 0x2000 && t.pc == 0x104) = true := by decide

/-- spec/95_test_vectors.md I38: `shr x3, x1, x2`. -/
theorem test_shr_I38 : after (at100 0x1B312000 [(1, 0x80000000), (2, 0x00000021)] [])
    (fun t => t.getX 3 == 0x40000000 && t.flags == 0x0 && t.pc == 0x104) = true := by decide

/-- spec/95_test_vectors.md I40: `sar x3, x1, x2`. -/
theorem test_sar_I40 : after (at100 0x1C312000 [(1, 0x80000003), (2, 0x00000001)] [])
    (fun t => t.getX 3 == 0xC0000001 && t.flags == 0xE000 && t.pc == 0x104) = true := by decide

/-- spec/95_test_vectors.md I41: `sar x3, x1, x2`. -/
theorem test_sar_I41 : after (at100 0x1C312000 [(1, 0x7FFFFFFF), (2, 0x0000001F)] [])
    (fun t => t.getX 3 == 0x00000000 && t.flags == 0x2800 && t.pc == 0x104) = true := by decide

/-- spec/95_test_vectors.md I42: `cmp x1, x2`. -/
theorem test_cmp_I42 : after (at100 0x1D012000 [(1, 0x00000003), (2, 0x00000005)] [])
    (fun t => t.x == (at100 0x1D012000 [(1, 0x00000003), (2, 0x00000005)] []).x.set 13 0x104 && t.flags == 0x6000 && t.pc == 0x104) = true := by decide

/-- spec/95_test_vectors.md I45: `cmp x1, x2`. -/
theorem test_cmp_I45 : after (at100 0x1D012000 [(1, 0x80000000), (2, 0x00000001)] [])
    (fun t => t.x == (at100 0x1D012000 [(1, 0x80000000), (2, 0x00000001)] []).x.set 13 0x104 && t.flags == 0x9000 && t.pc == 0x104) = true := by decide

/-- spec/95_test_vectors.md I46: `mov x3, x1`. -/
theorem test_mov_I46 : after (at100 0x1E310000 [(1, 0x80000000)] [])
    (fun t => t.getX 3 == 0x80000000 && t.flags == 0x4000 && t.pc == 0x104) = true := by decide

/-- spec/95_test_vectors.md I48: `not x3, x1`. -/
theorem test_not_I48 : after (at100 0x1F310000 [(1, 0x00000000)] [])
    (fun t => t.getX 3 == 0xFFFFFFFF && t.flags == 0xC000 && t.pc == 0x104) = true := by decide

/-- spec/95_test_vectors.md I49: `not x3, x1`. -/
theorem test_not_I49 : after (at100 0x1F310000 [(1, 0xFFFFFFFF)] [])
    (fun t => t.getX 3 == 0x00000000 && t.flags == 0x800 && t.pc == 0x104) = true := by decide

/-- spec/95_test_vectors.md I51: `addi x3, x1, -1`. -/
theorem test_addi_I51 : after (at100 0x2031FFFF [(1, 0x00000001)] [])
    (fun t => t.getX 3 == 0x00000000 && t.flags == 0x2800 && t.pc == 0x104) = true := by decide

/-- spec/95_test_vectors.md I52: `addi x3, x1, 32767`. -/
theorem test_addi_I52 : after (at100 0x20317FFF [(1, 0x7FFF8001)] [])
    (fun t => t.getX 3 == 0x80000000 && t.flags == 0x5000 && t.pc == 0x104) = true := by decide

/-- spec/95_test_vectors.md I53: `andi x3, x1, 65535`. -/
theorem test_andi_I53 : after (at100 0x2131FFFF [(1, 0x12345678)] [])
    (fun t => t.getX 3 == 0x00005678 && t.flags == 0x0 && t.pc == 0x104) = true := by decide

/-- spec/95_test_vectors.md I54: `ori x3, x1, 32768`. -/
theorem test_ori_I54 : after (at100 0x22318000 [(1, 0x00000000)] [])
    (fun t => t.getX 3 == 0x00008000 && t.flags == 0x0 && t.pc == 0x104) = true := by decide

/-- spec/95_test_vectors.md I55: `xori x3, x1, 65535`. -/
theorem test_xori_I55 : after (at100 0x2331FFFF [(1, 0x0000FFFF)] [])
    (fun t => t.getX 3 == 0x00000000 && t.flags == 0x800 && t.pc == 0x104) = true := by decide

/-- spec/95_test_vectors.md I56: `shli x3, x1, 4`. -/
theorem test_shli_I56 : after (at100 0x24310004 [(1, 0x12345678)] [])
    (fun t => t.getX 3 == 0x23456780 && t.flags == 0x2000 && t.pc == 0x104) = true := by decide

/-- spec/95_test_vectors.md I59: `shli x3, x1, 0`. -/
theorem test_shli_I59 : after (at100 0x24310000 [(1, 0x12345678)] [])
    (fun t => t.getX 3 == 0x12345678 && t.flags == 0x0 && t.pc == 0x104) = true := by decide

/-- spec/95_test_vectors.md I57: `shri x3, x1, 4`. -/
theorem test_shri_I57 : after (at100 0x25310004 [(1, 0x12345678)] [])
    (fun t => t.getX 3 == 0x01234567 && t.flags == 0xA000 && t.pc == 0x104) = true := by decide

/-- spec/95_test_vectors.md I58: `sari x3, x1, 4`. -/
theorem test_sari_I58 : after (at100 0x26310004 [(1, 0x87654321)] [])
    (fun t => t.getX 3 == 0xF8765432 && t.flags == 0x4000 && t.pc == 0x104) = true := by decide

/-- spec/95_test_vectors.md I60: `cmpi x1, -1`. -/
theorem test_cmpi_I60 : after (at100 0x2701FFFF [(1, 0xFFFFFFFF)] [])
    (fun t => t.x == (at100 0x2701FFFF [(1, 0xFFFFFFFF)] []).x.set 13 0x104 && t.flags == 0x800 && t.pc == 0x104) = true := by decide

/-- spec/95_test_vectors.md I61: `cmpi x1, 1`. -/
theorem test_cmpi_I61 : after (at100 0x27010001 [(1, 0x00000000)] [])
    (fun t => t.x == (at100 0x27010001 [(1, 0x00000000)] []).x.set 13 0x104 && t.flags == 0xE000 && t.pc == 0x104) = true := by decide

/-- spec/95_test_vectors.md I62: `lui x3, 0x8000`. -/
theorem test_lui_I62 : after (at100 0x28308000 [] [])
    (fun t => t.getX 3 == 0x80000000 && t.flags == 0x4000 && t.pc == 0x104) = true := by decide

/-- spec/95_test_vectors.md I63: `lui x3, 0x0`. -/
theorem test_lui_I63 : after (at100 0x28300000 [] [])
    (fun t => t.getX 3 == 0x00000000 && t.flags == 0x800 && t.pc == 0x104) = true := by decide

/-- spec/95_test_vectors.md I64: `movi x3, -1`. -/
theorem test_movi_I64 : after (at100 0x2930FFFF [] [])
    (fun t => t.getX 3 == 0xFFFFFFFF && t.flags == 0xC000 && t.pc == 0x104) = true := by decide

/-- spec/95_test_vectors.md I65: `movi x3, 0x7FFF`. -/
theorem test_movi_I65 : after (at100 0x29307FFF [] [])
    (fun t => t.getX 3 == 0x00007FFF && t.flags == 0x8000 && t.pc == 0x104) = true := by decide

/-- spec/95_test_vectors.md F5: `fadd f3, f1, f2`. -/
theorem test_fadd_F5 : after (at100 0x50312000 [] [(1, 0x3F800000), (2, 0x33800001)])
    (fun t => t.getF 3 == 0x3F800001 && t.flags == 0x0 && t.pc == 0x104) = true := by decide

/-- spec/95_test_vectors.md F9: `fadd f3, f1, f2`. -/
theorem test_fadd_F9 : after (at100 0x50312000 [] [(1, 0x7F800001), (2, 0x3F800000)])
    (fun t => t.getF 3 == 0x7FC00000 && t.flags == 0x10000 && t.pc == 0x104) = true := by decide

/-- spec/95_test_vectors.md F11: `fsub f3, f1, f2`. -/
theorem test_fsub_F11 : after (at100 0x51312000 [] [(1, 0x3F800000), (2, 0x3F800000)])
    (fun t => t.getF 3 == 0x00000000 && t.flags == 0x0 && t.pc == 0x104) = true := by decide

/-- spec/95_test_vectors.md F12: `fsub f3, f1, f2`. -/
theorem test_fsub_F12 : after (at100 0x51312000 [] [(1, 0x7F800000), (2, 0x7F800000)])
    (fun t => t.getF 3 == 0x7FC00000 && t.flags == 0x10000 && t.pc == 0x104) = true := by decide

/-- spec/95_test_vectors.md F14: `fmul f3, f1, f2`. -/
theorem test_fmul_F14 : after (at100 0x52312000 [] [(1, 0x40400000), (2, 0xC0000000)])
    (fun t => t.getF 3 == 0xC0C00000 && t.flags == 0x0 && t.pc == 0x104) = true := by decide

/-- spec/95_test_vectors.md F16: `fmul f3, f1, f2`. -/
theorem test_fmul_F16 : after (at100 0x52312000 [] [(1, 0x00000001), (2, 0x3F000000)])
    (fun t => t.getF 3 == 0x00000000 && t.flags == 0x0 && t.pc == 0x104) = true := by decide

/-- spec/95_test_vectors.md F18: `fdiv f3, f1, f2`. -/
theorem test_fdiv_F18 : after (at100 0x53312000 [] [(1, 0x3F800000), (2, 0x80000000)])
    (fun t => t.getF 3 == 0xFF800000 && t.flags == 0x20000 && t.pc == 0x104) = true := by decide

/-- spec/95_test_vectors.md F20: `fdiv f3, f1, f2`. -/
theorem test_fdiv_F20 : after (at100 0x53312000 [] [(1, 0x3F800000), (2, 0x40400000)])
    (fun t => t.getF 3 == 0x3EAAAAAB && t.flags == 0x0 && t.pc == 0x104) = true := by decide

/-- spec/95_test_vectors.md F22: `fmov f3, f1`. -/
theorem test_fmov_F22 : after (at100 0x54310000 [] [(1, 0x7F800001)])
    (fun t => t.getF 3 == 0x7F800001 && t.flags == 0x10000 && t.pc == 0x104) = true := by decide

/-- spec/95_test_vectors.md F25: `itof f3, x1`. -/
theorem test_itof_F25 : after (at100 0x55310000 [(1, 0x01000003)] [])
    (fun t => t.getF 3 == 0x4B800002 && t.flags == 0x0 && t.pc == 0x104) = true := by decide

/-- spec/95_test_vectors.md F27: `itof f3, x1`. -/
theorem test_itof_F27 : after (at100 0x55310000 [(1, 0x7FFFFFFF)] [])
    (fun t => t.getF 3 == 0x4F000000 && t.flags == 0x0 && t.pc == 0x104) = true := by decide

/-- spec/95_test_vectors.md F29: `ftoi x3, f1`. -/
theorem test_ftoi_F29 : after (at100 0x56310000 [] [(1, 0xBFF00000)])
    (fun t => t.getX 3 == 0xFFFFFFFF && t.flags == 0xC000 && t.pc == 0x104) = true := by decide

/-- spec/95_test_vectors.md F33: `ftoi x3, f1`. -/
theorem test_ftoi_F33 : after (at100 0x56310000 [] [(1, 0xCF000001)])
    (fun t => t.getX 3 == 0x80000000 && t.flags == 0x5000 && t.pc == 0x104) = true := by decide

/-- spec/95_test_vectors.md F37: `movxf f3, x1`. -/
theorem test_movxf_F37 : after (at100 0x57310000 [(1, 0xFFC00001)] [])
    (fun t => t.getF 3 == 0xFFC00001 && t.flags == 0x10000 && t.pc == 0x104) = true := by decide

/-- spec/95_test_vectors.md F38: `movfx x3, f1`. -/
theorem test_movfx_F38 : after (at100 0x58310000 [] [(1, 0xBF800000)])
    (fun t => t.getX 3 == 0xBF800000 && t.flags == 0x4000 && t.pc == 0x104) = true := by decide

/-- spec/95_test_vectors.md F39: `feq x3, f1, f2`. -/
theorem test_feq_F39 : after (at100 0x59312000 [] [(1, 0x00000000), (2, 0x80000000)])
    (fun t => t.getX 3 == 0x00000001 && t.flags == 0x8000 && t.pc == 0x104) = true := by decide

/-- spec/95_test_vectors.md F40: `feq x3, f1, f2`. -/
theorem test_feq_F40 : after (at100 0x59312000 [] [(1, 0x7FC00000), (2, 0x7FC00000)])
    (fun t => t.getX 3 == 0x00000000 && t.flags == 0x800 && t.pc == 0x104) = true := by decide

/-- spec/95_test_vectors.md F41: `flt x3, f1, f2`. -/
theorem test_flt_F41 : after (at100 0x5A312000 [] [(1, 0xBF800000), (2, 0x3F800000)])
    (fun t => t.getX 3 == 0x00000001 && t.flags == 0x8000 && t.pc == 0x104) = true := by decide

/-- spec/95_test_vectors.md F42: `flt x3, f1, f2`. -/
theorem test_flt_F42 : after (at100 0x5A312000 [] [(1, 0x7FC00000), (2, 0x3F800000)])
    (fun t => t.getX 3 == 0x00000000 && t.flags == 0x800 && t.pc == 0x104) = true := by decide

/-- spec/95_test_vectors.md F44: `fle x3, f1, f2`. -/
theorem test_fle_F44 : after (at100 0x5B312000 [] [(1, 0xFF800000), (2, 0x7F800000)])
    (fun t => t.getX 3 == 0x00000001 && t.flags == 0x8000 && t.pc == 0x104) = true := by decide

/-! ### Control transfers -/

/-- spec/95_test_vectors.md B1. -/
theorem test_jmp_B1 : after (machine 0x200 0x41000010 0 [] [] [])
    (fun t => t.pc == 0x240 && t.flags == 0) = true := by decide

/-- spec/95_test_vectors.md B2: the target wraps. -/
theorem test_jmp_B2 : after (machine 0x100 0x41FFFFBF 0 [] [] [])
    (fun t => t.pc == 0xFFFFFFFC && t.flags == 0) = true := by decide

/-- spec/95_test_vectors.md B3. -/
theorem test_call_B3 : after (machine 0x200 0x42FFFFFE 0 [(15, 0x8000)] [] [])
    (fun t => t.pc == 0x1F8 && t.sp == 0x7FFC && t.physRead 0x7FFC 4 == 0x204 && t.flags == 0) = true := by decide

/-- spec/95_test_vectors.md B4: no alignment. -/
theorem test_jmpr_B4 : after (machine 0x200 0x43050000 0 [(5, 0x1003)] [] [])
    (fun t => t.pc == 0x1003 && t.flags == 0) = true := by decide

/-- spec/95_test_vectors.md B5: the old x15 is the target. -/
theorem test_callr_B5 : after (machine 0x200 0x440F0000 0 [(15, 0x8000)] [] [])
    (fun t => t.pc == 0x8000 && t.sp == 0x7FFC && t.physRead 0x7FFC 4 == 0x204 && t.flags == 0) = true := by decide

/-- spec/95_test_vectors.md B6. -/
theorem test_ret_B6 : after (machine 0x200 0x45000000 0 [(15, 0x7FFC)] [] [(0x7FFC, 0x240)])
    (fun t => t.pc == 0x240 && t.sp == 0x8000 && t.flags == 0) = true := by decide

/-- spec/95_test_vectors.md B7. -/
theorem test_beq_B7 : after (machine 0x200 0x40080004 0x800 [] [] [])
    (fun t => t.pc == 0x210 && t.flags == 0x800) = true := by decide

/-- spec/95_test_vectors.md B8. -/
theorem test_beq_B8 : after (machine 0x200 0x40080004 0 [] [] [])
    (fun t => t.pc == 0x204 && t.flags == 0) = true := by decide

/-- spec/95_test_vectors.md B9. -/
theorem test_blt_B9 : after (machine 0x200 0x40600004 0x4000 [] [] [])
    (fun t => t.pc == 0x210 && t.flags == 0x4000) = true := by decide

/-- spec/95_test_vectors.md B10. -/
theorem test_blt_B10 : after (machine 0x200 0x40600004 0x5000 [] [] [])
    (fun t => t.pc == 0x204 && t.flags == 0x5000) = true := by decide

/-- spec/95_test_vectors.md B11. -/
theorem test_bhi_B11 : after (machine 0x200 0x40480004 0 [] [] [])
    (fun t => t.pc == 0x210 && t.flags == 0) = true := by decide

/-- spec/95_test_vectors.md B12. -/
theorem test_bhi_B12 : after (machine 0x200 0x40480004 0x2000 [] [] [])
    (fun t => t.pc == 0x204 && t.flags == 0x2000) = true := by decide

/-- spec/95_test_vectors.md B14. -/
theorem test_bnan_B14 : after (machine 0x200 0x40880004 0x10000 [] [] [])
    (fun t => t.pc == 0x210 && t.flags == 0x10000) = true := by decide

/-- spec/95_test_vectors.md B15. -/
theorem test_binf_B15 : after (machine 0x200 0x40900004 0 [] [] [])
    (fun t => t.pc == 0x204 && t.flags == 0) = true := by decide

/-- spec/95_test_vectors.md B13: the most negative offset wraps. -/
theorem test_bal_B13 : after (machine 0x200 0x40040000 0 [] [] [])
    (fun t => t.pc == 0xFFF00200 && t.flags == 0) = true := by decide

/-- The example of spec/43_control.md R264. -/
theorem test_bne_R264 : after (machine 0x200 0x40100004 0x800 [] [] [])
    (fun t => t.pc == 0x204 && t.flags == 0x800) = true := by decide

/-- The example of spec/43_control.md R265. -/
theorem test_bcs_R265 : after (machine 0x200 0x40180004 0x2000 [] [] [])
    (fun t => t.pc == 0x210 && t.flags == 0x2000) = true := by decide

/-- The example of spec/43_control.md R266. -/
theorem test_bcc_R266 : after (machine 0x200 0x40200004 0x2000 [] [] [])
    (fun t => t.pc == 0x204 && t.flags == 0x2000) = true := by decide

/-- The example of spec/43_control.md R267. -/
theorem test_bmi_R267 : after (machine 0x200 0x40280004 0x4000 [] [] [])
    (fun t => t.pc == 0x210 && t.flags == 0x4000) = true := by decide

/-- The example of spec/43_control.md R268. -/
theorem test_bpl_R268 : after (machine 0x200 0x40300004 0x4000 [] [] [])
    (fun t => t.pc == 0x204 && t.flags == 0x4000) = true := by decide

/-- The example of spec/43_control.md R269. -/
theorem test_bvs_R269 : after (machine 0x200 0x40380004 0x1000 [] [] [])
    (fun t => t.pc == 0x210 && t.flags == 0x1000) = true := by decide

/-- The example of spec/43_control.md R270. -/
theorem test_bvc_R270 : after (machine 0x200 0x40400004 0x1000 [] [] [])
    (fun t => t.pc == 0x204 && t.flags == 0x1000) = true := by decide

/-- The example of spec/43_control.md R272. -/
theorem test_bls_R272 : after (machine 0x200 0x40500004 0x800 [] [] [])
    (fun t => t.pc == 0x210 && t.flags == 0x800) = true := by decide

/-- The example of spec/43_control.md R273. -/
theorem test_bge_R273 : after (machine 0x200 0x40580004 0x5000 [] [] [])
    (fun t => t.pc == 0x210 && t.flags == 0x5000) = true := by decide

/-- The example of spec/43_control.md R275. -/
theorem test_bgt_R275 : after (machine 0x200 0x40680004 0x800 [] [] [])
    (fun t => t.pc == 0x204 && t.flags == 0x800) = true := by decide

/-- The example of spec/43_control.md R276. -/
theorem test_ble_R276 : after (machine 0x200 0x40700004 0x5000 [] [] [])
    (fun t => t.pc == 0x204 && t.flags == 0x5000) = true := by decide

/-- The example of spec/43_control.md R277. -/
theorem test_bod_R277 : after (machine 0x200 0x40780004 0x8000 [] [] [])
    (fun t => t.pc == 0x210 && t.flags == 0x8000) = true := by decide

/-- The example of spec/43_control.md R278. -/
theorem test_bev_R278 : after (machine 0x200 0x40800004 0x8000 [] [] [])
    (fun t => t.pc == 0x204 && t.flags == 0x8000) = true := by decide

/-! ### Loads, stores and the stack -/

/-- spec/95_test_vectors.md L1. -/
theorem test_stw_L1 : after (machine 0x100 0x35430000 0 [(3, 0x2000), (4, 0x11223344)] [] [])
    (fun t => t.readBytes 0x2000 4 == [0x44, 0x33, 0x22, 0x11] && t.flags == 0 && t.pc == 0x104) = true := by decide

/-- spec/95_test_vectors.md L2. -/
theorem test_sth_L2 : after (machine 0x100 0x36430002 0 [(3, 0x2000), (4, 0x11223344)] [] [])
    (fun t => t.readBytes 0x2000 5 == [0, 0, 0x44, 0x33, 0] && t.flags == 0 && t.pc == 0x104) = true := by decide

/-- spec/95_test_vectors.md L3. -/
theorem test_stb_L3 : after (machine 0x100 0x3743FFFF 0 [(3, 0x2000), (4, 0x11223344)] [] [])
    (fun t => t.readBytes 0x1FFE 3 == [0, 0x44, 0] && t.flags == 0 && t.pc == 0x104) = true := by decide

/-- spec/95_test_vectors.md L5: unaligned. -/
theorem test_ldw_L5 : after (machine 0x100 0x30430001 0 [(3, 0x2000)] [] [(0x2000, 0x11223344), (0x2004, 0x55667788)])
    (fun t => t.getX 4 == 0x88112233 && t.flags == 0 && t.pc == 0x104) = true := by decide

/-- spec/95_test_vectors.md L6. -/
theorem test_ldh_L6 : after (machine 0x100 0x31430000 0 [(3, 0x2000)] [] [(0x2000, 0x8001)])
    (fun t => t.getX 4 == 0x8001 && t.flags == 0 && t.pc == 0x104) = true := by decide

/-- spec/95_test_vectors.md L7. -/
theorem test_ldhs_L7 : after (machine 0x100 0x32430000 0 [(3, 0x2000)] [] [(0x2000, 0x8001)])
    (fun t => t.getX 4 == 0xFFFF8001 && t.flags == 0 && t.pc == 0x104) = true := by decide

/-- spec/95_test_vectors.md L8. -/
theorem test_ldhs_L8 : after (machine 0x100 0x32430000 0 [(3, 0x2000)] [] [(0x2000, 0x7FFF)])
    (fun t => t.getX 4 == 0x7FFF && t.flags == 0 && t.pc == 0x104) = true := by decide

/-- spec/95_test_vectors.md L9. -/
theorem test_ldb_L9 : after (machine 0x100 0x33430000 0 [(3, 0x2000)] [] [(0x2000, 0x80)])
    (fun t => t.getX 4 == 0x80 && t.flags == 0 && t.pc == 0x104) = true := by decide

/-- spec/95_test_vectors.md L10. -/
theorem test_ldbs_L10 : after (machine 0x100 0x34430000 0 [(3, 0x2000)] [] [(0x2000, 0x80)])
    (fun t => t.getX 4 == 0xFFFFFF80 && t.flags == 0 && t.pc == 0x104) = true := by decide

/-- spec/95_test_vectors.md L11. -/
theorem test_ldbs_L11 : after (machine 0x100 0x34430000 0 [(3, 0x2000)] [] [(0x2000, 0x7F)])
    (fun t => t.getX 4 == 0x7F && t.flags == 0 && t.pc == 0x104) = true := by decide

/-- spec/95_test_vectors.md L12: the address wraps. -/
theorem test_stw_L12 : after (machine 0x100 0x35430000 0 [(3, 0xFFFFFFFE), (4, 0xAABBCCDD)] [] [])
    (fun t => t.readBytes 0xFFFFFFFE 4 == [0xDD, 0xCC, 0xBB, 0xAA] && Memory.read t.mem 1 == 0xAA && t.flags == 0 && t.pc == 0x104) = true := by decide

/-- spec/95_test_vectors.md L15. -/
theorem test_push_L15 : after (machine 0x100 0x3A040000 0 [(4, 0xDEADBEEF), (15, 0x10000)] [] [])
    (fun t => t.sp == 0xFFFC && t.readBytes 0xFFFC 4 == [0xEF, 0xBE, 0xAD, 0xDE] && t.flags == 0 && t.pc == 0x104) = true := by decide

/-- spec/95_test_vectors.md L16: the old x15 is stored. -/
theorem test_push_L16 : after (machine 0x100 0x3A0F0000 0 [(15, 0x10000)] [] [])
    (fun t => t.sp == 0xFFFC && t.physRead 0xFFFC 4 == 0x10000 && t.flags == 0 && t.pc == 0x104) = true := by decide

/-- spec/95_test_vectors.md L17. -/
theorem test_pop_L17 : after (machine 0x100 0x3B400000 0 [(15, 0xFFFC)] [] [(0xFFFC, 0x01020304)])
    (fun t => t.getX 4 == 0x01020304 && t.sp == 0x10000 && t.flags == 0 && t.pc == 0x104) = true := by decide

/-- spec/95_test_vectors.md L18: the loaded value wins. -/
theorem test_pop_L18 : after (machine 0x100 0x3BF00000 0 [(15, 0xFFFC)] [] [(0xFFFC, 0x01020304)])
    (fun t => t.sp == 0x01020304 && t.flags == 0 && t.pc == 0x104) = true := by decide

/-- spec/95_test_vectors.md L19: a load into x13 is a jump. -/
theorem test_ldw_L19 : after (machine 0x100 0x30D30000 0 [(3, 0x2000)] [] [(0x2000, 0x400)])
    (fun t => t.pc == 0x400) = true := by decide

/-- spec/95_test_vectors.md L20. -/
theorem test_fst_L20 : after (machine 0x100 0x39230000 0 [(3, 0x2000)] [(2, 0x3F800000)] [])
    (fun t => t.physRead 0x2000 4 == 0x3F800000 && t.flags == 0 && t.pc == 0x104) = true := by decide

/-- spec/95_test_vectors.md L21: a signalling NaN is loaded as it is. -/
theorem test_fld_L21 : after (machine 0x100 0x38530000 0 [(3, 0x2000)] [] [(0x2000, 0x7F800001)])
    (fun t => t.getF 5 == 0x7F800001 && t.flags == 0 && t.pc == 0x104) = true := by decide

/-! ### System instructions, interrupts and traps -/

/-- spec/95_test_vectors.md T1: reserved bits are dropped. -/
theorem test_wrfl_T1 : after (at100 0x05040000 [(4, 0xFFFFFFFF)] [])
    (fun t => t.flags == 0x000FFFFF && t.pc == 0x104) = true := by decide

/-- spec/95_test_vectors.md T2 and S7. -/
theorem test_wrfl_T2 : after (withVectors (machine 0x100 0x05040000 0x00040000 [] [] []))
    (fun t => t.pc == 0x4A0 && t.flags == 0 && saveArea t == [0x100, 0x00040000, 0x0A, 0x05040000]) = true := by decide

/-- spec/95_test_vectors.md T3. -/
theorem test_rdfl_T3 : after (machine 0x100 0x04400000 0x00042800 [] [] [])
    (fun t => t.getX 4 == 0x00042800 && t.flags == 0x00042800) = true := by decide

/-- spec/95_test_vectors.md T4. -/
theorem test_rdmk_T4 : after (machine 0x100 0x06400000 0x000402A5 [] [] [])
    (fun t => t.getX 4 == 0xA5 && t.flags == 0x000402A5) = true := by decide

/-- spec/95_test_vectors.md T5: only MASK changes. -/
theorem test_wrmk_T5 : after (machine 0x100 0x07040000 0x4000 [(4, 0x1FF)] [] [])
    (fun t => t.flags == 0x40FF && t.pc == 0x104) = true := by decide

/-- spec/95_test_vectors.md T6: HALT in the User ring. -/
theorem test_halt_T6 : after (withVectors (machine 0x100 0x02000000 0x00040000 [] [] []))
    (fun t => t.pc == 0x4A0 && t.halted == .running && saveArea t == [0x100, 0x00040000, 0x0A, 0x02000000]) = true := by decide

/-- spec/95_test_vectors.md T7: IRET in the User ring. -/
theorem test_iret_T7 : after (withVectors (machine 0x100 0x03000000 0x00040000 [] [] []))
    (fun t => t.pc == 0x4A0 && saveArea t == [0x100, 0x00040000, 0x0A, 0x03000000]) = true := by decide

/-- spec/95_test_vectors.md T8: RDMM in the User ring. -/
theorem test_rdmm_T8 : after (withVectors ((machine 0x100 0x08400000 0x00040000 [] [] []).setMemmap 0x1234))
    (fun t => t.pc == 0x4A0 && t.getX 4 == 0 && saveArea t == [0x100, 0x00040000, 0x0A, 0x08400000]) = true := by decide

/-- The example of spec/44_privileged.md R307. -/
theorem test_rdmm_R307 : after ((machine 0x100 0x08200000 0 [] [] []).setMemmap 0x1000)
    (fun t => t.getX 2 == 0x1000 && t.memmap == 0x1000) = true := by decide

/-- spec/95_test_vectors.md T9. -/
theorem test_wrmm_T9 : after (at100 0x09040000 [(4, 0x5000)] [])
    (fun t => t.memmap == 0x5000 && t.pc == 0x104) = true := by decide

/-- spec/95_test_vectors.md T10: reserved bits masked. -/
theorem test_iret_T10 : after (machine 0x100 0x03000000 0 [] [] [(0x40, 0x500), (0x44, 0xFFF4C0FF)])
    (fun t => t.pc == 0x500 && t.flags == 0x0004C0FF) = true := by decide

/-- spec/95_test_vectors.md T11: no checkpoint follows HALT. -/
theorem test_halt_T11 : after (withVectors ((machine 0x100 0x02000000 0xFF [] [] []).setRaises [some 0]))
    (fun t => t.halted == .haltExecuted 0x100 && t.pending == 1 && t.pc == 0x100 && saveArea t == [0, 0, 0, 0]) = true := by decide

/-- spec/95_test_vectors.md T12: the all-zero word halts. -/
theorem test_invalid_T12 : after (withVectors ((machine 0x100 0 0xFF [] [] []).setRaises [some 0]))
    (fun t => t.halted == .invalidOpcode 0x100 0 && t.pending == 1 && t.flags == 0xFF) = true := by decide

/-- spec/95_test_vectors.md B16: condition 19 halts. -/
theorem test_invalid_B16 : after (at100 0x40980000 [] [])
    (fun t => t.halted == .invalidOpcode 0x100 0x40980000 && t.pc == 0x100) = true := by decide

/-- spec/95_test_vectors.md T13. -/
theorem test_nop_T13 : after (at100 0x01000000 [] [])
    (fun t => t == (at100 0x01000000 [] []).setX 13 0x104) = true := by decide

/-- spec/95_test_vectors.md X1: line 2 is taken. -/
theorem test_line_X1 : after (withVectors ((machine 0x100 0x01000000 0x04 [] [] []).setRaises [some 2]))
    (fun t => t.pc == 0x420 && t.flags == 0x200 && t.pending == 0 && saveArea t == [0x104, 0x04, 0x02, 0]) = true := by decide

/-- spec/95_test_vectors.md X2: a masked line is queued. -/
theorem test_line_X2 : after (withVectors ((machine 0x100 0x01000000 0 [] [] []).setRaises [some 2]))
    (fun t => t.pc == 0x104 && t.pending == 4) = true := by decide

/-- spec/95_test_vectors.md X3: the new mask applies at the same step. -/
theorem test_line_X3 : after (withVectors ((machine 0x100 0x07040000 0 [(4, 0xFF)] [] []).setRaises [some 5]))
    (fun t => t.pc == 0x450 && t.flags == 0x500 && saveArea t == [0x104, 0xFF, 0x05, 0]) = true := by decide

/-- spec/95_test_vectors.md X4: the lowest line. -/
theorem test_line_X4 : after (withVectors ((machine 0x100 0x01000000 0xFF [] [] []).setPending 0x28))
    (fun t => t.pc == 0x430 && t.flags == 0x300 && t.pending == 0x20 && saveArea t == [0x104, 0xFF, 0x03, 0]) = true := by decide

/-- spec/95_test_vectors.md X5: the fault beats the line. -/
theorem test_line_X5 : after (withVectors ((machine 0x100 0x05040000 0x000400FF [] [] []).setRaises [some 1]))
    (fun t => t.pc == 0x4A0 && t.flags == 0 && t.pending == 2 && saveArea t == [0x100, 0x000400FF, 0x0A, 0x05040000]) = true := by decide

/-- spec/95_test_vectors.md X7: a halted core ignores a raise. -/
theorem test_halted_X7 : after (((at100 0x01000000 [] []).setHalted (.haltExecuted 0x100)).setRaises [some 4])
    (fun t => t.pending == 0 && t.pc == 0x100 && t.halted == .haltExecuted 0x100) = true := by decide

/-! ### Translation -/

set_option maxRecDepth 20000 in
/-- spec/95_test_vectors.md M1. -/
theorem test_mmu_M1 : after (withTables (withVectors (machine 0x100 0x30430004 0x00080000 [(3, 0x10000)] [] [(0x30004, 0x99)])))
    (fun t => t.getX 4 == 0x99) = true := by decide

set_option maxRecDepth 20000 in
/-- spec/95_test_vectors.md M2: a zero first-level entry. -/
theorem test_mmu_M2 : after (withTables (withVectors (machine 0x100 0x30430000 0x00080000 [(3, 0x01000000)] [] [])))
    (fun t => t.pc == 0x480 && t.flags == 0 && saveArea t == [0x100, 0x00080000, 0x008, 0x01000000]) = true := by decide

set_option maxRecDepth 20000 in
/-- spec/95_test_vectors.md M3: Used is clear. -/
theorem test_mmu_M3 : after (withTables (withVectors (machine 0x100 0x30430000 0x00080000 [(3, 0x20000)] [] [])))
    (fun t => t.pc == 0x480 && saveArea t == [0x100, 0x00080000, 0x008, 0x00020000]) = true := by decide

set_option maxRecDepth 20000 in
/-- spec/95_test_vectors.md M5: not writable. -/
theorem test_mmu_M5 : after (withTables (withVectors (machine 0x100 0x35430000 0x00080000 [(3, 0x40000), (4, 1)] [] [])))
    (fun t => t.pc == 0x490 && t.physRead 0x60000 4 == 0 && saveArea t == [0x100, 0x00080000, 0x109, 0x00040000]) = true := by decide

set_option maxRecDepth 20000 in
/-- spec/95_test_vectors.md M7: the third byte fails. -/
theorem test_mmu_M7 : after (withTables (withVectors (machine 0x100 0x3043FFFE 0x00080000 [(3, 0x20000)] [] [])))
    (fun t => t.getX 4 == 0 && saveArea t == [0x100, 0x00080000, 0x008, 0x00020000]) = true := by decide

set_option maxRecDepth 20000 in
/-- spec/95_test_vectors.md M8: no byte is stored. -/
theorem test_mmu_M8 : after (withTables (withVectors (machine 0x100 0x3543FFFE 0x00080000 [(3, 0x20000), (4, 0x11223344)] [] [])))
    (fun t => t.physRead 0x3FFFE 2 == 0 && saveArea t == [0x100, 0x00080000, 0x108, 0x00020000]) = true := by decide

set_option maxRecDepth 20000 in
/-- spec/95_test_vectors.md M9: a fetch without X. -/
theorem test_mmu_M9 : after (withTables (withVectors (machine 0x40000 0x01000000 0x00080000 [] [] [])))
    (fun t => t.pc == 0x490 && saveArea t == [0x40000, 0x00080000, 0x209, 0x00040000]) = true := by decide

set_option maxRecDepth 20000 in
/-- spec/95_test_vectors.md M10: the checks are the same in both rings. -/
theorem test_mmu_M10 : after (withTables (withVectors (machine 0x100 0x01000000 0x000C0000 [] [] [])))
    (fun t => t.pc == 0x104 && t.flags == 0x000C0000) = true := by decide

/-! ## Witnesses: a state and operands that meet the hypotheses of each statement that has any -/

/-- Two f registers, all else as at reset. -/
def floats (a b : Word) : State := (State.reset.setF 1 a).setF 2 b

/-- Two x registers, all else as at reset. -/
def ints (a b : Word) : State := (State.reset.setX 1 a).setX 2 b

/-- A state with these flags, all else as at reset. -/
def withFlags (w : Word) : State := State.reset.setFlags w

/-- A state at 0x100 with this word there and these flags. -/
def atWord (word flags : Word) : State := (withFlags flags).physWrite 0x100 4 word

theorem test_witness_DecodeEncode : (Instr.shli 15 13 31).WellFormed := by decide
theorem test_witness_EncodeDecode : decode 0x4097FFFF = some (.binf 0x7FFFF) := by decide
theorem test_witness_DecodesWhenRowMatches :
    (0x10FFF000 : Word) &&& (tableRow (.add 0 0 0)).2 = (tableRow (.add 0 0 0)).1 ∧
      (0x10FFF000 : Word) &&& (tableRow (.add 15 15 15)).2 = (tableRow (.add 15 15 15)).1 := by decide
theorem test_witness_UnassignedWordsRejected_opcodes :
    ([0x00, 0x0A, 0x0F, 0x2A, 0x2F, 0x3C, 0x3F, 0x46, 0x4F, 0x5C, 0xFF] : List (BitVec 8)).all
      (fun op => decode (op ++ 0#24) == none) = true := by decide
theorem test_witness_UnassignedWordsRejected_conditions :
    (decode 0x40900000).isSome = true ∧ decode 0x40980000 = none ∧ decode 0x40F80000 = none := by decide
theorem test_witness_ConditionsAfterCompare : ∃ t, exec (.cmp 1 2) (ints 0x80000000 1) = .next t := ⟨_, rfl⟩
theorem test_witness_OverflowIsSigned :
    (∃ t, exec (.add 3 1 2) (ints 0x7FFFFFFF 1) = .next t) ∧ (∃ t, exec (.addi 3 1 0x8000) (ints 0x80000000 1) = .next t) ∧
      ∃ t, exec (.sub 3 1 2) (ints 0x80000000 1) = .next t := ⟨⟨_, rfl⟩, ⟨_, rfl⟩, ⟨_, rfl⟩⟩
theorem test_witness_UnsignedDivisionEffect : (ints 7 0).getX 2 = 0#32 ∧ (ints 0xFFFFFFFF 1).getX 2 ≠ 0#32 := by decide
theorem test_witness_SignedDivisionEffect :
    (ints 7 0).getX 2 = 0#32 ∧
      ((ints 0x80000000 0xFFFFFFFF).getX 1 = 0x80000000#32 ∧ (ints 0x80000000 0xFFFFFFFF).getX 2 = 0xFFFFFFFF#32) ∧
      (ints 0x80000001 0xFFFFFFFF).getX 2 ≠ 0#32 ∧
      ¬((ints 0x80000001 0xFFFFFFFF).getX 1 = 0x80000000#32 ∧ (ints 0x80000001 0xFFFFFFFF).getX 2 = 0xFFFFFFFF#32) := by
  decide
theorem test_witness_DivisionLaw :
    (∃ t u, exec (.divs 3 1 2) (ints 0x80000001 0xFFFFFFFF) = .next t ∧
        exec (.rems 3 1 2) (ints 0x80000001 0xFFFFFFFF) = .next u) ∧
      ((ints 0x80000001 0xFFFFFFFF).getX 2).toInt ≠ 0 ∧
      ¬(((ints 0x80000001 0xFFFFFFFF).getX 1).toInt = -2 ^ 31 ∧ ((ints 0x80000001 0xFFFFFFFF).getX 2).toInt = -1) :=
  ⟨⟨_, _, rfl, rfl⟩, by decide, by decide⟩
theorem test_witness_ShiftImmediateEffect :
    0x24 ≤ (0x24310020 : Word).toNat / 2 ^ 24 ∧ (0x26318000 : Word).toNat / 2 ^ 24 ≤ 0x26 ∧
      32 ≤ (0x24310020 : Word).toNat % 2 ^ 16 := by decide
/-- Each special clause of FADD and FSUB: a NaN, two infinities, one infinity, two finite values. -/
theorem test_witness_FaddEffect_FsubEffect :
    NaNPattern ((floats 0x7F800001 0).getF 1) ∧
      (InfinitePattern ((floats 0x7F800000 0xFF800000).getF 1) ∧ InfinitePattern ((floats 0x7F800000 0xFF800000).getF 2)) ∧
      (InfinitePattern ((floats 0x7F800000 0x7F7FFFFF).getF 1) ∧ FinitePattern ((floats 0x7F800000 0x7F7FFFFF).getF 2)) ∧
      (FinitePattern ((floats 0x7F7FFFFF 0xFF800000).getF 1) ∧ InfinitePattern ((floats 0x7F7FFFFF 0xFF800000).getF 2)) ∧
      FinitePattern ((floats 0x80000000 0x80000000).getF 1) ∧ FinitePattern ((floats 0x80000000 0x80000000).getF 2) ∧
      NegativePattern ((floats 0x80000000 0x80000000).getF 1) ∧ ¬NegativePattern ((floats 0x80000000 0x7FFFFFFF).getF 2) := by
  decide
theorem test_witness_FaddEffect_FsubEffect_zero :
    realValue ((floats 0x80000000 0x80000000).getF 1) + realValue ((floats 0x80000000 0x80000000).getF 2) = 0 ∧
      realValue ((floats 0x3F800000 0x3F800000).getF 1) - realValue ((floats 0x3F800000 0x3F800000).getF 2) = 0 := by
  have h : (floats 0x80000000 0x80000000).getF 1 = 0x80000000#32 ∧ (floats 0x80000000 0x80000000).getF 2 = 0x80000000#32 := by
    decide
  exact ⟨by rw [h.1, h.2]; norm_num [realValue], sub_self _⟩
theorem test_witness_FmulEffect :
    (InfinitePattern ((floats 0x7F800000 0x80000000).getF 1) ∧ ZeroPattern ((floats 0x7F800000 0x80000000).getF 2)) ∧
      (InfinitePattern ((floats 0x7F800000 1).getF 1) ∧ ¬NaNPattern ((floats 0x7F800000 1).getF 2) ∧
        ¬ZeroPattern ((floats 0x7F800000 1).getF 2)) ∧
      FinitePattern ((floats 0x7F7FFFFF 1).getF 1) ∧ FinitePattern ((floats 0x7F7FFFFF 1).getF 2) := by decide
theorem test_witness_FdivEffect :
    (ZeroPattern ((floats 0 0x80000000).getF 1) ∧ ZeroPattern ((floats 0 0x80000000).getF 2)) ∧
      (FinitePattern ((floats 1 0x80000000).getF 1) ∧ ¬ZeroPattern ((floats 1 0x80000000).getF 1) ∧
        ZeroPattern ((floats 1 0x80000000).getF 2)) ∧
      (FinitePattern ((floats 0 0xFF800000).getF 1) ∧ InfinitePattern ((floats 0 0xFF800000).getF 2)) ∧
      (InfinitePattern ((floats 0x7F800000 0).getF 1) ∧ FinitePattern ((floats 0x7F800000 0).getF 2)) ∧
      FinitePattern ((floats 0x7F7FFFFF 1).getF 2) ∧ ¬ZeroPattern ((floats 0x7F7FFFFF 1).getF 2) := by decide
theorem test_witness_ItofEffect : (ints 0 0).getX 1 = 0#32 := by decide
/-- The clauses of FTOI meet at 2^31 and -2^31: 0x4F000000 is the first value that saturates, 0xCF000000 the last that
does not, 0xCF000001 the first below. -/
theorem test_witness_FtoiEffect :
    NaNPattern 0x7FC00000#32 ∧ FinitePattern 0x4F000000#32 ∧ (2 : ℚ) ^ 31 ≤ realValue 0x4F000000#32 ∧
      FinitePattern 0xCF000001#32 ∧ realValue 0xCF000001#32 < -2 ^ 31 ∧
      FinitePattern 0xCF000000#32 ∧ -2 ^ 31 ≤ realValue 0xCF000000#32 ∧ realValue 0xCF000000#32 < 2 ^ 31 := by
  refine ⟨by decide, by decide, ?_, by decide, ?_, by decide, ?_, ?_⟩ <;> norm_num [realValue]
theorem test_witness_FloatCompareEffect :
    (¬NaNPattern 0xFF800000#32 ∧ ¬NaNPattern 0x7F800000#32) ∧ orderValue 0x7F800000#32 = orderValue 0x7F800000#32 ∧
      orderValue 0xFF800000#32 < orderValue 0x7F800000#32 := by
  refine ⟨by decide, rfl, ?_⟩
  simp [orderValue]
theorem test_witness_branches : (withFlags 0).flagSet.z = false ∧ (withFlags 0x800).flagSet.z = true ∧
    (withFlags 0x5000).flagSet.n = (withFlags 0x5000).flagSet.v ∧
    (withFlags 0x1000).flagSet.n ≠ (withFlags 0x1000).flagSet.v := by decide
/-- An access of each length that completes, across the end of the address space, and one that fails. -/
theorem test_witness_LoadEffect :
    (withFlags 0).translateBytes .read (addressOf (withFlags 0) 0 0xFFFE) 4 =
        .ok [0xFFFFFFFE#32, 0xFFFFFFFF#32, 0#32, 1#32] ∧
      (withFlags 0).translateBytes .read (addressOf (withFlags 0) 0 0xFFFF) 2 = .ok [0xFFFFFFFF#32, 0#32] ∧
      (withFlags 0).translateBytes .read (addressOf (withFlags 0) 0 0xFFFF) 1 = .ok [0xFFFFFFFF#32] ∧
      (withFlags 0x80000).translateBytes .read (addressOf (withFlags 0x80000) 0 0xFFFF) 4 =
        .error ⟨.page, 0xFFFFFFFF#32, .read⟩ := by decide
theorem test_witness_StoreEffect :
    (withFlags 0).translateBytes .write (addressOf (withFlags 0) 0 0xFFFE) 4 =
        .ok [0xFFFFFFFE#32, 0xFFFFFFFF#32, 0#32, 1#32] ∧
      (withFlags 0).translateBytes .write (addressOf (withFlags 0) 0 0xFFFF) 2 = .ok [0xFFFFFFFF#32, 0#32] ∧
      (withFlags 0).translateBytes .write (addressOf (withFlags 0) 0 0xFFFF) 1 = .ok [0xFFFFFFFF#32] ∧
      (withFlags 0x80000).translateBytes .write (addressOf (withFlags 0x80000) 0 0xFFFF) 1 =
        .error ⟨.page, 0xFFFFFFFF#32, .write⟩ := by decide
theorem test_witness_StackEffect_CallReturnEffect :
    (withFlags 0).translateBytes .write ((withFlags 0).getX 15 - 4#32) 4 =
        .ok [0xFFFFFFFC#32, 0xFFFFFFFD#32, 0xFFFFFFFE#32, 0xFFFFFFFF#32] ∧
      (withFlags 0).translateBytes .read ((withFlags 0).getX 15) 4 = .ok [0#32, 1#32, 2#32, 3#32] ∧
      (withFlags 0x80000).translateBytes .write ((withFlags 0x80000).getX 15 - 4#32) 4 =
        .error ⟨.page, 0xFFFFFFFC#32, .write⟩ ∧
      (withFlags 0x80000).translateBytes .read ((withFlags 0x80000).getX 15) 4 = .error ⟨.page, 0#32, .read⟩ := by decide
theorem test_witness_PushThenPop : (ints 0xAABBCCDD 0).flagSet.m = false ∧
    ∃ t u, exec (.push 1) (ints 0xAABBCCDD 0) = .next t ∧ exec (.pop 2) t = .next u := ⟨by decide, _, _, rfl, rfl⟩
theorem test_witness_UnprivilegedSystemEffect : (withFlags 0x000FFFFF).ReservedZero := by decide
theorem test_witness_PrivilegedSystemEffect : (withFlags 0x000BFFFF).flagSet.r = false ∧ (withFlags 0x000BFFFF).ReservedZero := by
  decide
theorem test_witness_IretEffect : (withFlags 0x000BFFFF).flagSet.r = false := by decide
/-- With the cpuwu-ref decoder and with another one, for which the word 0 is `wrfl x4`. -/
theorem test_witness_PrivilegeFaultInUserRing : (atWord 0x0504_0000 0x40000).Running ∧
    (atWord 0x0504_0000 0x40000).begun.fetch = .ok 0x0504_0000#32 ∧ decode 0x0504_0000#32 = some (.wrfl 4) ∧
    requiresSystemRing (.wrfl 4) = true ∧ (atWord 0x0504_0000 0x40000).flagSet.r = true ∧
    ((atWord 0 0x40000).latch (some 7)).fetch = .ok 0#32 ∧ (atWord 0 0x40000).flagSet.r = true := by decide
/-- The info word is the fetched word, whichever decoder is bound (30_encoding.md R117; 40_engine.md R145). -/
theorem test_privilege_fault_records_fetched_word :
    (match cycle (fun _ => some (.wrfl 4)) none (atWord 0x1234_5678 0x40000) with
      | .next t => t.physRead 0x4C 4 == 0x1234_5678#32 && t.physRead 0x48 4 == 10#32
      | .fault _ | .refused _ => false) = true := by decide
theorem test_witness_StepRunsDecoded : (atWord 0x01000000 0).Running ∧
    (atWord 0x01000000 0).begun.fetch = .ok 0x01000000#32 ∧ decode 0x01000000#32 = some .nop ∧
    exec .nop (atWord 0x01000000 0).begun = .next (atWord 0x01000000 0).begun.advance ∧
    ((atWord 0x01000000 0).latch (some 7)).fetch = .ok 0x01000000#32 := by
  refine ⟨by decide, by decide, by decide, rfl, by decide⟩
/-- The state a step begins with, for a list that is empty, that has no raise at its head, and that raises line 0 or 7. -/
theorem test_witness_StepRunsDecoded_begun :
    State.reset.begun.pending = 0#8 ∧ (State.reset.setRaises [none, some 7]).begun.pending = 0#8 ∧
      (State.reset.setRaises [some 0]).begun.pending = 0x01#8 ∧
      (State.reset.setRaises [some 7, none]).begun.pending = 0x80#8 ∧
      (State.reset.setRaises [some 7, none]).begun.raises = [none] := by decide
theorem test_witness_HaltedCoreIsFrozen : (State.reset.setHalted (.haltExecuted 0x100)).halted ≠ .running ∧
    (State.reset.setHalted (.invalidOpcode 0x100 0)).halted ≠ .running := by decide
theorem test_witness_InvalidOpcodeHalts : (atWord 0x40980000 0).Running ∧
    (atWord 0x40980000 0).begun.fetch = .ok 0x40980000#32 ∧ decode 0x40980000#32 = none := by decide
theorem test_witness_FetchFaultTraps : (withFlags 0x80000).Running ∧
    (withFlags 0x80000).begun.fetch = .error ⟨.page, 0x100#32, .execute⟩ := by decide
theorem test_witness_RaiseIsLatched : State.reset.Running ∧ (State.reset.setPending 0x80).pending.getLsbD (7 : Line).val = true := by
  decide
theorem test_witness_FlagsAreExclusive :
    (∃ t, exec (.ftoi 3 1) (floats 0x7FC00000 0) = .next t) ∧ category (.ftoi 3 1) = .int ∧
      (∃ t, exec (.movxf 3 1) (ints 0x7FC00000 0) = .next t) ∧ category (.movxf 3 1) = .float :=
  ⟨⟨_, rfl⟩, rfl, ⟨_, rfl⟩, rfl⟩
/-- Line 7 alone is eligible; line 0 is, below it; and with MASK clear none is. -/
theorem test_witness_CheckpointTakesLowestLine :
    (∀ k, k < 7 → ¬(((withFlags 0xFF).setPending 0x80).pending.getLsbD k = true ∧
        ((withFlags 0xFF).setPending 0x80).flagSet.mask.getLsbD k = true)) ∧
      ((withFlags 0xFF).setPending 0x80).pending.getLsbD 7 = true ∧
      ((withFlags 0x81).setPending 0x81).pending.getLsbD 0 = true ∧
      ((withFlags 0x81).setPending 0x81).flagSet.mask.getLsbD 0 = true ∧
      ∀ k, k < 8 → ¬(((withFlags 0).setPending 0xFF).pending.getLsbD k = true ∧
        ((withFlags 0).setPending 0xFF).flagSet.mask.getLsbD k = true) := by decide
theorem test_witness_IretUndoesTrapEntry : (withFlags 0x000FFFFF).ReservedZero ∧
    ∃ t, exec .iret ((withFlags 0x000FFFFF).trapEntry .pageFault 0x100 0 2) = .next t :=
  ⟨by decide, _, systemOnly_system (s := (withFlags 0x000FFFFF).trapEntry .pageFault 0x100 0 2)
    ((withFlags 0x000FFFFF).trapEntry .pageFault 0x100 0 2).trapReturn (by simp [State.userRing])⟩
theorem test_witness_FaultBeatsLines : (atWord 0x0504_0000 0x400FF).Running ∧ 8 ≤ (causeCode .privilegeFault).toNat ∧
    (atWord 0x0504_0000 0x400FF).begun.fetch = .ok 0x0504_0000#32 ∧ decode 0x0504_0000#32 = some (.wrfl 4) ∧
    exec (.wrfl 4) (atWord 0x0504_0000 0x400FF).begun =
      .next ((atWord 0x0504_0000 0x400FF).begun.trapEntry .privilegeFault 0x100#32 0x0504_0000#32 0#32) := by
  refine ⟨by decide, by decide, by decide, by decide, ?_⟩
  have h : (atWord 0x0504_0000 0x400FF).begun.userRing = true := by decide
  have hp : (atWord 0x0504_0000 0x400FF).begun.pc = 0x100#32 := by decide
  have hf : (atWord 0x0504_0000 0x400FF).begun.fetchRead (atWord 0x0504_0000 0x400FF).begun.pc = .ok 0x0504_0000#32 := by
    decide
  rw [exec, execWrfl, systemOnly_user _ h, State.privilegeFault_of_fetch hf, hp]
theorem test_witness_HandlerIsUndisturbed : (atWord 0x01000000 0).Running ∧ (atWord 0x01000000 0).InHandler ∧
    decode ((atWord 0x01000000 0).physRead ((atWord 0x01000000 0).getX 13) 4) = some .nop ∧
    (atWord 0x01000000 0).begun.advance.InHandler := by decide
/-- In the User ring: a step that stays there, one that takes a fault, and one that takes a line its instruction left. -/
theorem test_witness_UserRingIsConfined : (atWord 0x01000000 0x40000).Running ∧ (atWord 0x01000000 0x40000).flagSet.r = true ∧
    after (atWord 0x01000000 0x40000) (fun t => t.flagSet.r) = true ∧
    after (atWord 0x02000000 0x40000) (fun t => !t.flagSet.r) = true ∧
    after ((atWord 0x01000000 0x40080).setPending 0x80) (fun t => !t.flagSet.r && t.flagSet.lll == 7#3) = true := by decide
theorem test_witness_LittleEndianValues :
    ((State.reset.physWrite 0xFFFFFFFE 4 0x11223344).physRead (0xFFFFFFFE + BitVec.ofNat 32 2) 2).toNat = 0x1122 ∧
      ((State.reset.physWrite 0xFFFFFFFE 4 0x11223344).physRead (0xFFFFFFFE + BitVec.ofNat 32 4) 0).toNat = 0 := by decide
theorem test_witness_IdentityAndRings : (withFlags 0x000FFFFF).flagSet.m = true ∧ (withFlags 0x0007FFFF).flagSet.m = false := by
  decide
/-- Under table T: L1[1] is 0; VA page 2 has Used clear; VA page 4 has W clear; VA page 0 is readable. -/
theorem test_witness_TranslationFaults :
    (withTables (withFlags 0x80000)).flagSet.m = true ∧ (withTables (withFlags 0x80000)).entry1 0x01000000 = 0#32 ∧
      (withTables (withFlags 0x80000)).entry1 0x00020000 ≠ 0#32 ∧
      ((withTables (withFlags 0x80000)).entry2 0x00020000).getLsbD 31 = false ∧
      ((withTables (withFlags 0x80000)).entry2 0x00040000).getLsbD 31 = true ∧
      allowed ((withTables (withFlags 0x80000)).entry2 0x00040000) .write = false ∧
      allowed ((withTables (withFlags 0x80000)).entry2 0x00040000) .read = true := by decide
/-- The largest page base and the largest offset give the largest address, 0x1000FFFE. -/
theorem test_witness_TranslatedAddress :
    (((withTables (withFlags 0x80000)).physWrite 0x2014 4 0xCFFFFFFF).translate 0x0005FFFF .read) = .ok 0x1000FFFE#32 := by
  decide
theorem test_witness_RegisterPortRoundTrip : (33 : RegId) ≠ 32 ∧ ((withFlags 0).portWrite 33 0xFFFFFFFF).portRead 33 = 0xFFFFFFFF#32 ∧
    ((withFlags 0).portWrite 16 0xDEADBEEF).portRead 15 = 0#32 := by decide
theorem test_witness_FlagsCodecRoundTrip : (0x000FFFFF : Word) &&& 0xFFF00000#32 = 0#32 ∧
    FlagsCodec.encode (FlagsCodec.decode 0x0004C0FF) = 0x0004C0FF#32 ∧ FlagsCodec.encode (FlagsCodec.decode 0xFFF00000) = 0#32 := by
  decide
theorem test_witness_StepKeepsInvariant : (atWord 0x01000000 0).Inv ∧ after (atWord 0x01000000 0) (fun t => Memory.wf t.mem) = true := by
  decide
theorem test_witness_TrapEntryEffect : (faultKind .execute < 3 ∧ kindCode .execute = BitVec.ofNat 32 2) ∧
    kindCode .read = BitVec.ofNat 32 0 ∧ kindCode .write = BitVec.ofNat 32 1 := by decide

end Sys2Proof.Tests
end

section
/-! SUPPORT. The invariant across one step: what a meaning can answer, said once for all instructions, and how each
answer keeps memory canonical and the reserved flag bits zero. -/

namespace Sys2Proof.Machine

/-! ## What a meaning can answer -/

/-- The states a meaning can answer from `s`, by the parts of the state that change (spec/40_engine.md R148 to R157): a
trap, registers alone, registers with the flags of a category, registers with one store, or what a privileged
instruction does in the System ring. -/
inductive ExecAnswer (s : State) : State → Prop where
  /-- The trap of a fault of Execute, with the instruction's own address as the return address. -/
  | trapped (c : Cause) (info kind : Word) (hc : 8 ≤ (causeCode c).toNat) : ExecAnswer s (s.trapEntry c s.pc info kind)
  /-- Registers and the pc: branches, jumps, loads, POP, RET and the reads of system registers. -/
  | registers (x f : Vector Word 16) : ExecAnswer s { s with x := x, f := f }
  /-- The integer-result update of flags (R153). -/
  | intResult (x : Vector Word 16) (res : IntResult) : ExecAnswer s { s with x := x, flags := intFlags s.flags res }
  /-- The float-result update of flags (R154). -/
  | floatResult (x f : Vector Word 16) (b : Word) :
      ExecAnswer s { s with x := x, f := f, flags := floatFlags s.flags b }
  /-- One store, and x15 or the pc beside it. -/
  | stored (x : Vector Word 16) (va v : Word) (n : Nat) (s' : State) (hw : s.memWrite va n v = .ok s') :
      ExecAnswer s { s' with x := x }
  /-- HALT in the System ring. -/
  | halted (hr : s.userRing = false) : ExecAnswer s (s.setHalted (.haltExecuted s.pc))
  /-- IRET in the System ring. -/
  | returned (hr : s.userRing = false) : ExecAnswer s s.trapReturn
  /-- WRFL or WRMK in the System ring: flags through the codec. -/
  | flagsWritten (hr : s.userRing = false) (x : Vector Word 16) (g : FlagSet) :
      ExecAnswer s { s with x := x, flags := FlagsCodec.encode g }
  /-- WRMM in the System ring. -/
  | memmapWritten (hr : s.userRing = false) (x : Vector Word 16) (w : Word) :
      ExecAnswer s { s with x := x, memmap := w }

/-- A loading instruction answers the fault or what follows the value. -/
theorem loadThen_answers {s : State} (va : Word) (n : Nat) {effect : Word → State}
    (heffect : ∀ v, ExecAnswer s (effect v)) : ∃ t, loadThen s va n effect = .next t ∧ ExecAnswer s t := by
  cases hr : s.memRead va n with
  | error f =>
    obtain ⟨c, info, kind, hc, htrap⟩ := s.accessFault_trap f
    exact ⟨_, loadThen_error effect hr, htrap ▸ .trapped c info kind hc⟩
  | ok v => exact ⟨_, loadThen_ok effect hr, heffect v⟩

/-- A storing instruction answers the fault or what follows the write. -/
theorem storeThen_answers {s : State} (va : Word) (n : Nat) (v : Word) {effect : State → State}
    (heffect : ∀ s', s.memWrite va n v = .ok s' → ExecAnswer s (effect s')) :
    ∃ t, storeThen s va n v effect = .next t ∧ ExecAnswer s t := by
  cases hw : s.memWrite va n v with
  | error f =>
    obtain ⟨c, info, kind, hc, htrap⟩ := s.accessFault_trap f
    exact ⟨_, storeThen_error effect hw, htrap ▸ .trapped c info kind hc⟩
  | ok s' => exact ⟨_, storeThen_ok effect hw, heffect s' hw⟩

/-- A privileged instruction answers PrivilegeFault in the User ring and its effect in the System ring. -/
theorem systemOnly_answers {s effect : State} (heffect : s.userRing = false → ExecAnswer s effect) :
    ∃ t, systemOnly s effect = .next t ∧ ExecAnswer s t := by
  cases hr : s.userRing with
  | true =>
    obtain ⟨c, info, kind, hc, htrap⟩ := s.privilegeFault_trap
    exact ⟨_, systemOnly_user effect hr, htrap ▸ .trapped c info kind hc⟩
  | false => exact ⟨_, systemOnly_system effect hr, heffect hr⟩

/-- Every meaning answers a next state, and one of the forms of `ExecAnswer`. -/
theorem exec_answers (i : Instr) (s : State) : ∃ t, exec i s = .next t ∧ ExecAnswer s t := by
  cases i with
  | nop | rdfl | rdmk | bal | beq | bne | bcs | bcc | bmi | bpl | bvs | bvc | bhi | bls | bge | blt | bgt | ble | bod | bev
  | bnan | binf | jmp | jmpr => exact ⟨_, rfl, .registers _ _⟩
  | add | sub | mul | divu | divs | remu | rems | and | or | xor | shl | shr | sar | cmp | mov | not | addi | andi | ori
  | xori | shli | shri | sari | cmpi | lui | movi | ftoi | movfx | feq | flt | fle => exact ⟨_, rfl, .intResult _ _⟩
  | fadd | fsub | fmul | fdiv | fmov | itof | movxf => exact ⟨_, rfl, .floatResult _ _ _⟩
  | ldw | ldh | ldhs | ldb | ldbs | fld | pop | ret => exact loadThen_answers _ _ fun _ => .registers _ _
  | stw | sth | stb | fst | push | call | callr => exact storeThen_answers _ _ _ fun s' => .stored _ _ _ _ s'
  | halt => exact systemOnly_answers .halted
  | iret => exact systemOnly_answers .returned
  | wrfl | wrmk => exact systemOnly_answers fun hr => .flagsWritten hr _ _
  | rdmm => exact systemOnly_answers fun _ => .registers _ _
  | wrmm => exact systemOnly_answers fun hr => .memmapWritten hr _ _

/-- What one meaning can do: the inversion of an answer. -/
theorem exec_cases {i : Instr} {s t : State} (h : exec i s = .next t) : ExecAnswer s t := by
  obtain ⟨u, hu, hanswer⟩ := exec_answers i s
  exact Host.Outcome.next.inj (hu.symm.trans h) ▸ hanswer

/-! ## What keeps the invariant -/

/-- The invariant speaks of memory and flags alone. -/
theorem State.Inv.congr {s t : State} (h : s.Inv) (hmem : t.mem = s.mem) (hflags : t.flags = s.flags) : t.Inv := by
  obtain ⟨hwf, hzero⟩ := h
  exact ⟨hmem ▸ hwf, by rwa [State.ReservedZero, hflags]⟩

/-- An architectural write of flags needs nothing of the flags before it. -/
theorem State.Inv.of_flags_encoded {s t : State} (h : s.Inv) (hmem : t.mem = s.mem) {g : FlagSet}
    (hflags : t.flags = FlagsCodec.encode g) : t.Inv :=
  ⟨hmem ▸ h.1, by rw [State.ReservedZero, hflags, encode_reserved]⟩

theorem State.Inv.trapEntry {s : State} (h : s.Inv) (c : Cause) (retpc info kind : Word) :
    (s.trapEntry c retpc info kind).Inv :=
  ⟨by simpa using s.writeSaveArea_wf c retpc info kind h.1, by simp [State.ReservedZero]⟩

theorem State.Inv.begun {s : State} (h : s.Inv) : s.begun.Inv := h.congr s.begun_mem s.begun_flags

theorem State.Inv.checkpoint {s : State} (h : s.Inv) : s.checkpoint.Inv := by
  obtain heq | ⟨l, -, -, heq⟩ := s.checkpoint_cases
  · rwa [heq]
  · exact heq ▸ h.trapEntry (.line l) s.pc 0#32 0#32

/-- Every answer of a meaning keeps the invariant. -/
theorem ExecAnswer.inv {s t : State} (hanswer : ExecAnswer s t) (h : s.Inv) : t.Inv := by
  cases hanswer with
  | trapped c info kind => exact h.trapEntry c s.pc info kind
  | registers | halted | memmapWritten => exact h.congr rfl rfl
  | intResult | floatResult | flagsWritten => exact h.of_flags_encoded rfl rfl
  | stored x va v n s' hw =>
    obtain ⟨pas, -, rfl, hwf⟩ := State.memWrite_ok hw
    exact ⟨hwf h.1, h.2⟩
  | returned => exact h.of_flags_encoded s.trapReturn_mem s.trapReturn_flags

/-- Settles O60, by the four ways a step can end: a halted core stays, a fetch fault enters a trap, an invalid word
halts the core, and an instruction's answer goes through the checkpoint. -/
theorem stepKeepsInvariant : Obligations.StepKeepsInvariant := by
  intro s t h hstep
  obtain ⟨-, rfl⟩ | ⟨-, f, -, rfl⟩ | ⟨-, w, -, -, rfl⟩ | ⟨-, w, i, u, -, -, hexec, rfl⟩ := step_cases hstep
  · exact h
  · exact h.begun.trapEntry _ _ _ _
  · exact h.begun.congr rfl rfl
  · exact ((exec_cases hexec).inv h.begun).checkpoint

end Sys2Proof.Machine
end

section
/-! SUPPORT. The register-file port (spec/10_state.md R20, R25), the FlagsCodec's masking (R36), and the reset state
(R44): what the family of spec/10_state.md claims beside the invariant. -/

namespace Sys2Proof.Machine

/-! ## The register-file port -/

/-- The port's id of an x register. -/
def xId (i : XReg) : RegId := i.castLE (by decide)

/-- The port's id of an f register. -/
def fId (j : FReg) : RegId := (j.natAdd 16).castLE (by decide)

/-- Every id is an x register's, an f register's, 32 or 33. -/
theorem regId_cases (id : RegId) : (∃ i, id = xId i) ∨ (∃ j, id = fId j) ∨ id = 32 ∨ id = 33 := by
  by_cases hx : id.val < 16
  · exact .inl ⟨⟨id, hx⟩, rfl⟩
  by_cases hf : id.val - 16 < 16
  · exact .inr (.inl ⟨⟨id - 16, hf⟩, Fin.ext (by simp [fId]; omega)⟩)
  · simp only [Fin.ext_iff]
    exact .inr (.inr (by change id.val = 32 ∨ id.val = 33; omega))

@[simp] theorem xId_inj {i k : XReg} : xId i = xId k ↔ i = k := by simp [xId]
@[simp] theorem fId_inj {j k : FReg} : fId j = fId k ↔ j = k := by simp [fId, Fin.ext_iff]
@[simp] theorem xId_ne_fId (i : XReg) (j : FReg) : xId i ≠ fId j := by
  simp [xId, fId, Fin.ext_iff]; omega
@[simp] theorem xId_ne_flags (i : XReg) : xId i ≠ 32 := by simp [xId, Fin.ext_iff]; omega
@[simp] theorem xId_ne_memmap (i : XReg) : xId i ≠ 33 := by simp [xId, Fin.ext_iff]; omega
@[simp] theorem fId_ne_flags (j : FReg) : fId j ≠ 32 := by simp [fId, Fin.ext_iff]; omega
@[simp] theorem fId_ne_memmap (j : FReg) : fId j ≠ 33 := by simp [fId, Fin.ext_iff]; omega

@[simp] theorem State.portRead_xId (s : State) (i : XReg) : s.portRead (xId i) = s.getX i := by
  simp [State.portRead, xId]
@[simp] theorem State.portRead_fId (s : State) (j : FReg) : s.portRead (fId j) = s.getF j := by
  simp [State.portRead, fId]
@[simp] theorem State.portRead_flags (s : State) : s.portRead 32 = s.flags := rfl
@[simp] theorem State.portRead_memmap (s : State) : s.portRead 33 = s.memmap := rfl

@[simp] theorem State.portWrite_xId (s : State) (i : XReg) (v : Word) : s.portWrite (xId i) v = s.setX i v := by
  simp [State.portWrite, xId]
@[simp] theorem State.portWrite_fId (s : State) (j : FReg) (v : Word) : s.portWrite (fId j) v = s.setF j v := by
  simp [State.portWrite, fId]
@[simp] theorem State.portWrite_flags (s : State) (v : Word) : s.portWrite 32 v = s.setFlags v := rfl
@[simp] theorem State.portWrite_memmap (s : State) (v : Word) : s.portWrite 33 v = s.setMemmap v := rfl

theorem State.portRead_setX (s : State) (i : XReg) (v : Word) (k : RegId) :
    (s.setX i v).portRead k = if k = xId i then v else s.portRead k := by
  obtain ⟨i', rfl⟩ | ⟨j, rfl⟩ | rfl | rfl := regId_cases k
  · simp [State.getX_setX, eq_comm (a := i)]
  · simp [(xId_ne_fId i j).symm]
  · simp [(xId_ne_flags i).symm]
  · simp [(xId_ne_memmap i).symm]

theorem State.portRead_setF (s : State) (j : FReg) (v : Word) (k : RegId) :
    (s.setF j v).portRead k = if k = fId j then v else s.portRead k := by
  obtain ⟨i, rfl⟩ | ⟨j', rfl⟩ | rfl | rfl := regId_cases k
  · simp
  · simp [State.getF_setF, eq_comm (a := j)]
  · simp [(fId_ne_flags j).symm]
  · simp [(fId_ne_memmap j).symm]

theorem State.portRead_setFlags (s : State) (v : Word) (k : RegId) :
    (s.setFlags v).portRead k = if k = 32 then v else s.portRead k := by
  obtain ⟨i, rfl⟩ | ⟨j, rfl⟩ | rfl | rfl := regId_cases k <;> simp

theorem State.portRead_setMemmap (s : State) (v : Word) (k : RegId) :
    (s.setMemmap v).portRead k = if k = 33 then v else s.portRead k := by
  obtain ⟨i, rfl⟩ | ⟨j, rfl⟩ | rfl | rfl := regId_cases k <;> simp

/-- One equation for the port: the entry written reads as the value, every other entry as before. -/
theorem State.portRead_portWrite (s : State) (id k : RegId) (v : Word) :
    (s.portWrite id v).portRead k = if k = id then v else s.portRead k := by
  obtain ⟨i, rfl⟩ | ⟨j, rfl⟩ | rfl | rfl := regId_cases id
  · rw [State.portWrite_xId, State.portRead_setX]
  · rw [State.portWrite_fId, State.portRead_setF]
  · rw [State.portWrite_flags, State.portRead_setFlags]
  · rw [State.portWrite_memmap, State.portRead_setMemmap]

/-- A write through the port is a write of one register: PENDING, HALTED, the raises and memory stay. -/
theorem State.portWrite_frame (s : State) (id : RegId) (v : Word) :
    SameCore s (s.portWrite id v) ∧ (s.portWrite id v).mem = s.mem := by
  obtain ⟨i, rfl⟩ | ⟨j, rfl⟩ | rfl | rfl := regId_cases id <;> simp [SameCore]

/-- Settles O56, from the one equation of a port read after a port write and the frame of the write. -/
theorem registerPortRoundTrip : Obligations.RegisterPortRoundTrip := by
  intro s id v
  obtain ⟨hcore, hmem⟩ := s.portWrite_frame id v
  exact ⟨by simp [State.portRead_portWrite], fun k hk => by simp [State.portRead_portWrite, hk], hcore,
    fun a => by rw [hmem]⟩

/-! ## The FlagsCodec -/

/-- Encoding what was decoded keeps bits 19:0 and clears the reserved bits 31:20. -/
theorem FlagsCodec.encode_decode (w : Word) : FlagsCodec.encode (FlagsCodec.decode w) = w &&& 0x000FFFFF#32 := by
  apply BitVec.eq_of_getLsbD_eq
  intro i hi
  rw [getLsbD_encode _ _ hi, BitVec.getLsbD_and]
  interval_cases i <;> simp [FlagsCodec.decode, Config.flagsLayout]

/-- A word whose bits 31:20 are zero is its own bits 19:0. -/
theorem and_fields_of_reservedZero {w : Word} (h : w &&& 0xFFF00000#32 = 0#32) : w &&& 0x000FFFFF#32 = w :=
  calc w &&& 0x000FFFFF#32 = (w &&& 0xFFF00000#32) ||| (w &&& 0x000FFFFF#32) := by rw [h, BitVec.zero_or]
    _ = w &&& (0xFFF00000#32 ||| 0x000FFFFF#32) := BitVec.and_or_distrib_left.symm
    _ = w := BitVec.and_allOnes

/-- Settles O57: the masked round trip gives the exact one where the reserved bits are zero. -/
theorem flagsCodecRoundTrip : Obligations.FlagsCodecRoundTrip :=
  ⟨fun w h => (FlagsCodec.encode_decode w).trans (and_fields_of_reservedZero h), FlagsCodec.encode_decode, decode_encode⟩

/-! ## Accesses with translation off -/

/-- With M clear every byte address translates to itself (spec/20_memory.md R74). -/
theorem State.translateBytes_of_m_clear {s : State} (hm : s.flagSet.m = false) (k : AccessKind) (va : Word) (n : Nat) :
    s.translateBytes k va n = .ok (addrsFrom va n) := by
  induction n generalizing va with
  | zero => rfl
  | succ n ih => simp [State.translateBytes, State.translate, hm, ih, addrsFrom]

/-- With M clear a virtual read is the physical read at the same address. -/
theorem State.readVirtual_of_m_clear {s : State} (hm : s.flagSet.m = false) (k : AccessKind) (va : Word) (n : Nat) :
    s.readVirtual k va n = .ok (s.physRead va n) := by
  rw [State.readVirtual, State.translateBytes_of_m_clear hm]
  rfl

/-! ## Reset -/

/-- Settles O58: the fields by evaluation of the reset state, the first fetch because it starts with M clear. -/
theorem resetValues : Obligations.ResetValues := by
  have hm : State.reset.flagSet.m = false := by decide
  have hpc : State.reset.getX 13 = 0x100#32 := by decide
  refine ⟨hpc, rfl, rfl, rfl, rfl, by decide, hm, by decide, fun m => ?_⟩
  exact State.readVirtual_of_m_clear (s := State.reset.setMem m) hm .execute 0x100#32 4

/-- Settles O59: nothing is listed in memory at reset, and flags is 0. -/
theorem resetKeepsInvariant : Obligations.ResetKeepsInvariant := by
  have hwf : Memory.wf State.reset.mem = true := rfl
  have hzero : State.reset.ReservedZero := by decide
  exact ⟨hwf, hzero⟩

end Sys2Proof.Machine
end

section
/-! SUPPORT. The addresses and the bytes of a physical access, in the order of Machine/Ops.lean, and the translation in
the terms of the page tables: what the family of spec/20_memory.md claims. -/

namespace Sys2Proof.Machine

/-! ## The addresses of an access -/

theorem add_ofNat_add (a : Word) (i j : Nat) :
    a + BitVec.ofNat 32 i + BitVec.ofNat 32 j = a + BitVec.ofNat 32 (i + j) := by
  rw [BitVec.add_assoc, BitVec.ofNat_add]

theorem addrsFrom_eq_map (a : Word) (n : Nat) :
    addrsFrom a n = (List.range n).map fun i => a + BitVec.ofNat 32 i := by
  induction n generalizing a with
  | zero => rfl
  | succ n ih => simp [addrsFrom, ih, List.range_succ_eq_map, Function.comp_def, add_ofNat_add a 1, Nat.add_comm 1]

/-- Up to the size of the address space, the addresses of an access are different ones. -/
theorem addrsFrom_nodup (a : Word) {n : Nat} (hn : n ≤ 2 ^ 32) : (addrsFrom a n).Nodup := by
  rw [addrsFrom_eq_map]
  refine List.Nodup.map_on (fun i hi j hj heq => ?_) List.nodup_range
  have hnat := congrArg BitVec.toNat ((BitVec.add_right_inj a).mp heq)
  rw [List.mem_range] at hi hj
  rwa [BitVec.toNat_ofNat, BitVec.toNat_ofNat, Nat.mod_eq_of_lt (by omega), Nat.mod_eq_of_lt (by omega)] at hnat

/-! ## The bytes of a value -/

@[simp] theorem byteOf_zero (v : Word) : byteOf v 0 = v.setWidth 8 := (BitVec.setWidth_eq_extractLsb' (by decide)).symm

/-- Shifting a value right by whole bytes moves each byte down by as many places. -/
theorem byteOf_ushiftRight (v : Word) (i j : Nat) : byteOf (v >>> (8 * i)) j = byteOf v (i + j) := by
  apply BitVec.eq_of_getLsbD_eq
  intro b hb
  simp only [byteOf, BitVec.getLsbD_extractLsb', BitVec.getLsbD_ushiftRight, Nat.mul_add, Nat.add_assoc]

theorem leBytes_eq_map (n : Nat) (v : Word) : leBytes n v = (List.range n).map (byteOf v) := by
  induction n generalizing v with
  | zero => rfl
  | succ n ih =>
    simp [leBytes, ih, List.range_succ_eq_map, Function.comp_def, byteOf_ushiftRight v 1, Nat.add_comm 1]

theorem byteSum_lt (bs : List Byte) : byteSum bs < 256 ^ bs.length := by
  induction bs with
  | nil => simp [byteSum]
  | cons b bs ih =>
    have hb := b.isLt
    rw [byteSum, List.length_cons, Nat.pow_succ]
    omega

/-- The value of at most four bytes is their sum: nothing is shifted out of the word. -/
theorem toNat_leWord {bs : List Byte} (hlen : bs.length ≤ 4) : (leWord bs).toNat = byteSum bs := by
  induction bs with
  | nil => rfl
  | cons b bs ih =>
    rw [List.length_cons] at hlen
    have hsum : byteSum bs < 256 ^ 3 := (byteSum_lt bs).trans_le (Nat.pow_le_pow_right (by decide) (by omega))
    have hshift : (leWord bs <<< 8).toNat = byteSum bs <<< 8 := by
      rw [BitVec.toNat_shiftLeft, ih (by omega), Nat.shiftLeft_eq, Nat.mod_eq_of_lt (by omega)]
    have hbyte : (b.setWidth 32).toNat = b.toNat := BitVec.toNat_setWidth_of_le (by decide)
    rw [leWord, BitVec.toNat_or, hbyte, hshift, Nat.lor_comm, ← Nat.shiftLeft_add_eq_or_of_lt b.isLt,
      Nat.shiftLeft_eq, byteSum]
    omega

/-- The low `n` bytes of a value are the value modulo `2 ^ (8 * n)`. -/
theorem byteSum_leBytes (n : Nat) (v : Word) : byteSum (leBytes n v) = v.toNat % 2 ^ (8 * n) := by
  induction n generalizing v with
  | zero => simp [leBytes, byteSum, Nat.mod_one]
  | succ n ih =>
    calc byteSum (leBytes (n + 1) v) = v.toNat % 256 + 256 * (v.toNat / 256 % 2 ^ (8 * n)) := by
          simp [leBytes, byteSum, ih, Nat.shiftRight_eq_div_pow]
      _ = v.toNat % (256 * 2 ^ (8 * n)) := Nat.mod_mul.symm
      _ = v.toNat % 2 ^ (8 * (n + 1)) := by rw [Nat.mul_add, Nat.add_comm, Nat.pow_add]

/-! ## Physical reads and writes -/

/-- The bytes of a read stand at the addresses from `pa` on. -/
theorem State.readBytes_eq_bytesAt (s : State) (pa : Word) (n : Nat) : s.readBytes pa n = s.bytesAt (addrsFrom pa n) :=
  rfl

/-- A physical read of up to four bytes is the sum of its bytes. -/
theorem State.toNat_physRead (s : State) (pa : Word) {n : Nat} (hn : n ≤ 4) :
    (s.physRead pa n).toNat = byteSum (s.bytesAt (addrsFrom pa n)) := by
  rw [State.physRead, State.readBytes_eq_bytesAt]
  exact toNat_leWord (by simpa [State.bytesAt] using hn)

/-- After a write, each address written holds its byte of the value. -/
theorem State.read_physWrite (s : State) (pa v : Word) {n i : Nat} (hn : n ≤ 2 ^ 32) (hi : i < n) :
    Memory.read (s.physWrite pa n v).mem (pa + BitVec.ofNat 32 i).toNat = byteOf v i := by
  rw [State.physWrite_eq]
  refine Memory.read_writeAll_of_mem _ _ _ _ ?_ ?_
  · rw [addrsFrom_eq_map, leBytes_eq_map, List.zip_map']
    exact List.mem_map.mpr ⟨i, List.mem_range.mpr hi, rfl⟩
  · rw [List.map_fst_zip (by simp)]
    exact addrsFrom_nodup pa hn

/-- The bytes read inside a value that was written are bytes of that value, at their places. -/
theorem State.bytesAt_physWrite (s : State) (pa v : Word) {i n m : Nat} (hm : m ≤ 2 ^ 32) (hin : i + n ≤ m) :
    (s.physWrite pa m v).bytesAt (addrsFrom (pa + BitVec.ofNat 32 i) n) = leBytes n (v >>> (8 * i)) := by
  rw [addrsFrom_eq_map, leBytes_eq_map, State.bytesAt, List.map_map]
  refine List.map_congr_left fun j hj => ?_
  have hij : i + j < m := by
    rw [List.mem_range] at hj
    omega
  rw [Function.comp_apply, add_ofNat_add, byteOf_ushiftRight]
  exact s.read_physWrite pa v hm hij

/-- Settles O51: a read is the sum of its bytes, and those it finds inside a written word are the word's own. -/
theorem littleEndianValues : Obligations.LittleEndianValues := by
  refine ⟨fun s pa n hn => ?_, fun s pa v i n hin => ?_⟩
  · rw [← addrsFrom_eq_map]
    exact s.toNat_physRead pa hn
  · rw [State.toNat_physRead _ _ (by omega), State.bytesAt_physWrite _ _ _ (by decide) hin, byteSum_leBytes,
      BitVec.toNat_ushiftRight, Nat.shiftRight_eq_div_pow]

/-! ## The translation in the terms of the page tables -/

/-- With M clear a virtual address translates to itself (spec/20_memory.md R74). -/
theorem State.translate_of_m_clear {s : State} (hm : s.flagSet.m = false) (va : Word) (k : AccessKind) :
    s.translate va k = .ok va := by simp [State.translate, hm]

/-- A field of an address, shifted by two, is four times its value: the offset of a word in a table. -/
theorem tableOffset_eq (va : Word) (start : Nat) :
    (va.extractLsb' start 8).setWidth 32 <<< 2 = BitVec.ofNat 32 (4 * (va.toNat / 2 ^ start % 2 ^ 8)) := by
  apply BitVec.eq_of_toNat_eq
  have hfield : va.toNat / 2 ^ start % 2 ^ 8 < 2 ^ 8 := Nat.mod_lt _ (by decide)
  simp only [BitVec.toNat_shiftLeft, BitVec.toNat_setWidth, BitVec.extractLsb'_toNat, BitVec.toNat_ofNat,
    Nat.shiftRight_eq_div_pow, Nat.shiftLeft_eq]
  omega

theorem State.firstLevelEntry_eq (s : State) (va : Word) : s.firstLevelEntry va = s.entry1 va := by
  have htop : va.toNat / 2 ^ 24 % 2 ^ 8 = va.toNat / 2 ^ 24 :=
    Nat.mod_eq_of_lt (Nat.div_lt_of_lt_mul va.isLt)
  rw [State.firstLevelEntry, State.entry1, tableOffset_eq, htop]

theorem State.secondLevelEntry_entry1 (s : State) (va : Word) : s.secondLevelEntry (s.entry1 va) va = s.entry2 va := by
  rw [State.secondLevelEntry, State.entry2, tableOffset_eq]

theorem pteBit_used (e : Word) : pteBit e .used = e.getLsbD 31 := rfl

theorem pteBit_permissionBit (e : Word) (k : AccessKind) : pteBit e (permissionBit k) = allowed e k := by
  cases k <;> rfl

/-- The walk of spec/20_memory.md R73 in one equation, on the entries and bits the statements speak of. -/
theorem State.translate_of_m_set {s : State} (hm : s.flagSet.m = true) (va : Word) (k : AccessKind) :
    s.translate va k =
      if s.entry1 va = 0#32 then .error .page
      else if (s.entry2 va).getLsbD 31 = false then .error .page
      else if allowed (s.entry2 va) k = false then .error .protection
      else .ok (composeAddress (s.entry2 va) va) := by
  rw [State.translate, if_pos hm, State.walk]
  simp only [State.firstLevelEntry_eq, State.secondLevelEntry_entry1, pteBit_used, pteBit_permissionBit]

/-- Page base plus page offset fits a word with room to spare. -/
theorem toNat_composeAddress (e2 va : Word) :
    (composeAddress e2 va).toNat = e2.toNat % 2 ^ 28 + va.toNat % 2 ^ 16 := by
  simp only [composeAddress, BitVec.toNat_add, BitVec.toNat_setWidth, BitVec.extractLsb'_toNat, Nat.shiftRight_zero]
  omega

/-- Settles O52: with M clear by the definition, and the ring is none of what a translation depends on. -/
theorem identityAndRings : Obligations.IdentityAndRings :=
  ⟨fun _ va k hm => State.translate_of_m_clear hm va k,
    fun s _ va k => State.translate_congr (s.setFlagSet_mem _) (s.setFlagSet_memmap _)
      (by rw [State.flagSet_setFlagSet]) va k⟩

/-- Settles O53: the three failing branches of the walk. -/
theorem translationFaults : Obligations.TranslationFaults := by
  intro s va k hm
  rw [State.translate_of_m_set hm]
  refine ⟨fun hzero => ?_, fun hentry hunused => ?_, fun hentry hused hdenied => ?_⟩
  · rw [if_pos hzero]
  · rw [if_neg hentry, if_pos hunused]
  · rw [if_neg hentry, if_neg (by simp [hused]), if_pos hdenied]

/-- Settles O54: the last branch of the walk. -/
theorem translatedAddress : Obligations.TranslatedAddress := by
  intro s va k hm hentry hused hallowed
  refine ⟨composeAddress (s.entry2 va) va, ?_, toNat_composeAddress _ _, ?_⟩
  · rw [State.translate_of_m_set hm, if_neg hentry, if_neg (by simp [hused]), if_neg (by simp [hallowed])]
  · rw [toNat_composeAddress]
    omega

/-! ## The bytes of an access -/

/-- Where every byte translates, the run of translations gives just those addresses: it cannot have failed at one of
them. -/
theorem State.translateBytes_eq_ok {s : State} {k : AccessKind} {va : Word} {pas : List Word}
    (h : ∀ i (hi : i < pas.length), s.translate (va + BitVec.ofNat 32 i) k = .ok pas[i]) :
    s.translateBytes k va pas.length = .ok pas := by
  cases hrun : s.translateBytes k va pas.length with
  | error f =>
    obtain ⟨-, i, hi, hva, hfault, -⟩ := State.translateBytes_error hrun
    rw [hva, h i hi] at hfault
    cases hfault
  | ok qas =>
    obtain ⟨hlen, hall⟩ := State.translateBytes_ok hrun
    refine congrArg _ (List.ext_getElem hlen fun i hq hp => ?_)
    exact Except.ok.inj ((hall i hq).symm.trans (h i hp))

/-- Where a byte fails and every byte before it translates, the run of translations reports that byte: it can neither
have gone past it nor have stopped before it. -/
theorem State.translateBytes_eq_error {s : State} {k : AccessKind} {va : Word} {n i : Nat} {e : MmuFault} (hi : i < n)
    (hfault : s.translate (va + BitVec.ofNat 32 i) k = .error e)
    (hbefore : ∀ j, j < i → ∃ pa, s.translate (va + BitVec.ofNat 32 j) k = .ok pa) :
    s.translateBytes k va n = .error ⟨e, va + BitVec.ofNat 32 i, k⟩ := by
  cases hrun : s.translateBytes k va n with
  | ok pas =>
    obtain ⟨hlen, hall⟩ := State.translateBytes_ok hrun
    exact nomatch hfault.symm.trans (hall i (hlen ▸ hi))
  | error g =>
    obtain ⟨e', va', k'⟩ := g
    obtain ⟨rfl, i', -, rfl, hfault', hbefore'⟩ := State.translateBytes_error hrun
    obtain hlt | rfl | hgt := Nat.lt_trichotomy i i'
    · obtain ⟨pa, hpa⟩ := hbefore' i hlt
      exact nomatch hfault.symm.trans hpa
    · rw [Except.error.inj (hfault.symm.trans hfault')]
    · obtain ⟨pa, hpa⟩ := hbefore i' hgt
      exact nomatch hfault'.symm.trans hpa

/-- Settles O55: what a run of translations answers is fixed by its bytes, and the two answers exclude each other. -/
theorem accessTranslatesEveryByte : Obligations.AccessTranslatesEveryByte := by
  intro s k va n
  refine ⟨fun pas => ⟨State.translateBytes_ok, ?_⟩, fun f => ⟨State.translateBytes_error, ?_⟩⟩
  · rintro ⟨rfl, hall⟩
    exact State.translateBytes_eq_ok hall
  · obtain ⟨e, fva, kind⟩ := f
    rintro ⟨rfl, i, hi, rfl, hfault, hbefore⟩
    exact State.translateBytes_eq_error hi hfault hbefore

end Sys2Proof.Machine
end

section
/-! SUPPORT. The decoder against the encoder and against the opcode map: each format as its fields, the must-be-zero
masks as fields, and what a decoded word is, said once. What the family of spec/30_encoding.md claims. -/

namespace Sys2Proof.Laws

/-- The family RowMatch as one statement about every instruction. -/
theorem RowMatch.all (i : Instr) : Statement i := by
  cases i
  exacts [nop, halt, iret, rdfl _, wrfl _, rdmk _, wrmk _, rdmm _, wrmm _, add _ _ _, sub _ _ _, mul _ _ _,
    divu _ _ _, divs _ _ _, remu _ _ _, rems _ _ _, and _ _ _, or _ _ _, xor _ _ _, shl _ _ _, shr _ _ _,
    sar _ _ _, cmp _ _, mov _ _, not _ _, addi _ _ _, andi _ _ _, ori _ _ _, xori _ _ _, shli _ _ _,
    shri _ _ _, sari _ _ _, cmpi _ _, lui _ _, movi _ _, ldw _ _ _, ldh _ _ _, ldhs _ _ _, ldb _ _ _,
    ldbs _ _ _, stw _ _ _, sth _ _ _, stb _ _ _, fld _ _ _, fst _ _ _, push _, pop _, bal _, beq _, bne _,
    bcs _, bcc _, bmi _, bpl _, bvs _, bvc _, bhi _, bls _, bge _, blt _, bgt _, ble _, bod _, bev _,
    bnan _, binf _, jmp _, call _, jmpr _, callr _, ret, fadd _ _ _, fsub _ _ _, fmul _ _ _, fdiv _ _ _,
    fmov _ _, itof _ _, ftoi _ _, movxf _ _, movfx _ _, feq _ _ _, flt _ _ _, fle _ _ _]

end Sys2Proof.Laws

namespace Sys2Proof

open Sys2Proof.Machine

/-! ## Masks as fields -/

/-- The bits of one field are clear exactly when the field is zero. -/
theorem and_fieldMask_eq_zero_iff (w : Word) {start len : Nat} (h : start + len ≤ 32) :
    w &&& (BitVec.allOnes len).setWidth 32 <<< start = 0#32 ↔ w.extractLsb' start len = 0#len := by
  simp only [BitVec.eq_of_getLsbD_eq_iff]
  constructor
  · intro hw i hi
    simpa [BitVec.getLsbD_extractLsb', hi, (by omega : start + i < 32)] using hw (start + i) (by omega)
  · intro hw i hi
    by_cases hin : start ≤ i ∧ i < start + len
    · have := hw (i - start) (by omega)
      simp_all [(by omega : i - start < len)]
    · have hmask : ((BitVec.allOnes len).setWidth 32 <<< start).getLsbD i = false := by
        simp only [BitVec.getLsbD_shiftLeft, BitVec.getLsbD_setWidth, BitVec.getLsbD_allOnes, Bool.and_eq_false_imp,
          Bool.and_eq_true, decide_eq_true_eq, Bool.not_eq_true', decide_eq_false_iff_not]
        omega
      rw [BitVec.getLsbD_and, hmask, Bool.and_false, BitVec.getLsbD_zero]

theorem and_or_eq_zero_iff {w a b : Word} : w &&& (a ||| b) = 0#32 ↔ w &&& a = 0#32 ∧ w &&& b = 0#32 := by
  rw [BitVec.and_or_distrib_left, BitVec.or_eq_zero_iff]

theorem rdField_eq_zero_iff {w : Word} : rdField w = 0 ↔ w &&& 0xF00000#32 = 0#32 :=
  BitVec.toFin_inj.trans (and_fieldMask_eq_zero_iff w (start := 20) (len := 4) (by decide)).symm

theorem rs1Field_eq_zero_iff {w : Word} : rs1Field w = 0 ↔ w &&& 0x0F0000#32 = 0#32 :=
  BitVec.toFin_inj.trans (and_fieldMask_eq_zero_iff w (start := 16) (len := 4) (by decide)).symm

theorem rs2Field_eq_zero_iff {w : Word} : rs2Field w = 0 ↔ w &&& 0x00F000#32 = 0#32 :=
  BitVec.toFin_inj.trans (and_fieldMask_eq_zero_iff w (start := 12) (len := 4) (by decide)).symm

theorem mustBeZero_r2_iff {w : Word} : w &&& 0x00FFFF#32 = 0#32 ↔ rs2Field w = 0 ∧ w &&& 0x000FFF#32 = 0#32 := by
  rw [rs2Field_eq_zero_iff, ← and_or_eq_zero_iff]
  rfl

theorem mustBeZero_rd_iff {w : Word} :
    w &&& 0x0FFFFF#32 = 0#32 ↔ rs1Field w = 0 ∧ rs2Field w = 0 ∧ w &&& 0x000FFF#32 = 0#32 := by
  rw [rs1Field_eq_zero_iff, ← mustBeZero_r2_iff, ← and_or_eq_zero_iff]
  rfl

theorem mustBeZero_rs_iff {w : Word} :
    w &&& 0xF0FFFF#32 = 0#32 ↔ rdField w = 0 ∧ rs2Field w = 0 ∧ w &&& 0x000FFF#32 = 0#32 := by
  rw [rdField_eq_zero_iff, ← mustBeZero_r2_iff, ← and_or_eq_zero_iff]
  rfl

theorem mustBeZero_rss_iff {w : Word} : w &&& 0xF00FFF#32 = 0#32 ↔ rdField w = 0 ∧ w &&& 0x000FFF#32 = 0#32 := by
  rw [rdField_eq_zero_iff, ← and_or_eq_zero_iff]
  rfl

theorem mustBeZero_shift_iff {w : Word} : w &&& 0x00FFE0#32 = 0#32 ↔ shiftFieldOk (imm16Field w) = true := by
  have h : (imm16Field w).extractLsb' 5 11 = w.extractLsb' 5 11 := by
    apply BitVec.eq_of_getLsbD_eq
    intro i hi
    simp [imm16Field, hi]
  rw [shiftFieldOk, beq_iff_eq, h]
  exact and_fieldMask_eq_zero_iff w (start := 5) (len := 11) (by decide)

/-! ## A word of a format is its fields (30_encoding.md R101)

From left to right these are the field laws of Laws/Encode.lean; from right to left the fields cover all 32 bits. -/

theorem encodeN_eq_iff {op : BitVec 8} {w : Word} :
    encodeN op = w ↔ opcodeField w = op ∧ w &&& 0xFFFFFF#32 = 0#32 := by
  constructor
  · rintro rfl
    simp [encodeN_zero]
  · rintro ⟨rfl, hlow⟩
    rw [encodeN, ← (and_fieldMask_eq_zero_iff w (start := 0) (len := 24) (by decide)).mp hlow]
    change w.extractLsb' 24 8 ++ w.extractLsb' 0 24 = w
    simp only [BitVec.extractLsb'_append_extractLsb'_eq_extractLsb', BitVec.extractLsb'_eq_self]

theorem encodeR_eq_iff {op : BitVec 8} {rd rs1 rs2 : Fin 16} {w : Word} :
    encodeR op rd rs1 rs2 = w ↔
      opcodeField w = op ∧ rdField w = rd ∧ rs1Field w = rs1 ∧ rs2Field w = rs2 ∧ w &&& 0x000FFF#32 = 0#32 := by
  constructor
  · rintro rfl
    simp [encodeR_zero_r3]
  · rintro ⟨rfl, rfl, rfl, rfl, hlow⟩
    rw [encodeR, ← (and_fieldMask_eq_zero_iff w (start := 0) (len := 12) (by decide)).mp hlow]
    change w.extractLsb' 24 8 ++ w.extractLsb' 20 4 ++ w.extractLsb' 16 4 ++ w.extractLsb' 12 4 ++ w.extractLsb' 0 12
      = w
    simp only [BitVec.extractLsb'_append_extractLsb'_eq_extractLsb', BitVec.extractLsb'_eq_self]

theorem encodeI_eq_iff {op : BitVec 8} {rd rs1 : Fin 16} {imm : BitVec 16} {w : Word} :
    encodeI op rd rs1 imm = w ↔ opcodeField w = op ∧ rdField w = rd ∧ rs1Field w = rs1 ∧ imm16Field w = imm := by
  constructor
  · rintro rfl
    simp
  · rintro ⟨rfl, rfl, rfl, rfl⟩
    change w.extractLsb' 24 8 ++ w.extractLsb' 20 4 ++ w.extractLsb' 16 4 ++ w.extractLsb' 0 16 = w
    simp only [BitVec.extractLsb'_append_extractLsb'_eq_extractLsb', BitVec.extractLsb'_eq_self]

theorem encodeB_eq_iff {cond : BitVec 5} {imm : BitVec 19} {w : Word} :
    encodeB cond imm = w ↔ opcodeField w = 0x40#8 ∧ condField w = cond ∧ imm19Field w = imm := by
  constructor
  · rintro rfl
    simp
  · rintro ⟨hop, rfl, rfl⟩
    rw [encodeB, ← hop]
    change w.extractLsb' 24 8 ++ w.extractLsb' 19 5 ++ w.extractLsb' 0 19 = w
    simp only [BitVec.extractLsb'_append_extractLsb'_eq_extractLsb', BitVec.extractLsb'_eq_self]

theorem encodeJ_eq_iff {op : BitVec 8} {imm : BitVec 24} {w : Word} :
    encodeJ op imm = w ↔ opcodeField w = op ∧ imm24Field w = imm := by
  constructor
  · rintro rfl
    simp
  · rintro ⟨rfl, rfl⟩
    change w.extractLsb' 24 8 ++ w.extractLsb' 0 24 = w
    simp only [BitVec.extractLsb'_append_extractLsb'_eq_extractLsb', BitVec.extractLsb'_eq_self]

/-! ## The parts of the decoder -/

theorem zeroBits_eq_ok_iff {w z : Word} {i j : Instr} : zeroBits w z i = .ok j ↔ w &&& z = 0#32 ∧ i = j := by
  unfold zeroBits
  split <;> simp [*]

theorem forall_zeroBits_eq_ok {w z : Word} {i : Instr} {p : Instr → Prop} :
    (∀ j, zeroBits w z i = .ok j → p j) ↔ (w &&& z = 0#32 → p i) := by
  simp only [zeroBits_eq_ok_iff]
  exact ⟨fun h hz => h i ⟨hz, rfl⟩, fun h j ⟨hz, hj⟩ => hj ▸ h hz⟩

theorem decodeWord_of_branch {w : Word} (hop : opcodeField w = 0x40#8) : decodeWord w = decodeBranch w := by
  rw [decodeWord, hop]
  rfl

theorem decode_eq_some_iff_decodeWord {w : Word} {i : Instr} : decode w = some i ↔ decodeWord w = .ok i := by
  rw [decode]
  cases decodeWord w <;> simp [Except.toOption]

theorem decode_eq_none {w : Word} {e : DecodeError} (h : decodeWord w = .error e) : decode w = none := by
  rw [decode, h]
  rfl

/-! ## What a word decodes to encodes to the word

The split is along the rows of the decoder. A row answers operands read from the word's own fields, so the format's law
leaves the opcode, which the row was selected by, and the bits the row checks. In the
decoder's match arm 48 is the branch row; the last arm, here and among the branches, is the unassigned one. -/

theorem decodeBranch_sound {w : Word} (hop : opcodeField w = 0x40#8) :
    ∀ i, decodeBranch w = .ok i → encode i = w ∧ i.WellFormed := by
  rw [decodeBranch]
  have hcond : condField w = BitVec.ofNat 5 (condField w).toNat := by simp
  generalize (condField w).toNat = n at hcond
  split
  case h_20 => simp
  all_goals
    simp only [Except.ok.injEq, forall_eq']
    simp [encode, encodeB_eq_iff, Instr.WellFormed, Instr.wf, hop, hcond]

theorem decodeWord_sound {w : Word} : ∀ i, decodeWord w = .ok i → encode i = w ∧ i.WellFormed := by
  rw [decodeWord]
  have hop : opcodeField w = BitVec.ofNat 8 (opcodeField w).toNat := by simp
  generalize (opcodeField w).toNat = n at hop
  split
  case h_48 => exact decodeBranch_sound hop
  case h_66 => simp
  all_goals
    simp only [forall_zeroBits_eq_ok, Except.ok.injEq, forall_eq']
    simp +contextual [hop, encode, encodeN_eq_iff, encodeR_eq_iff, encodeI_eq_iff, encodeJ_eq_iff, mustBeZero_r2_iff,
      mustBeZero_rd_iff, mustBeZero_rs_iff, mustBeZero_rss_iff, mustBeZero_shift_iff, ← rdField_eq_zero_iff,
      ← rs1Field_eq_zero_iff, Instr.WellFormed, Instr.wf]

/-! ## The word of a well-formed instruction decodes to it

The cases are grouped by format, and within format I by the bits the row checks. -/

theorem decodeWord_encode {i : Instr} (hwf : i.WellFormed) : decodeWord (encode i) = .ok i := by
  cases i
  case nop | halt | iret | ret =>
    rw [encode, decodeWord, opcodeField_encodeN]
    exact zeroBits_eq_ok_iff.mpr ⟨encodeN_zero _, rfl⟩
  case addi | andi | ori | xori | ldw | ldh | ldhs | ldb | ldbs | stw | sth | stb | fld | fst =>
    rw [encode, decodeWord, opcodeField_encodeI]
    change Except.ok _ = _
    simp
  case shli | shri | sari =>
    rw [encode, decodeWord, opcodeField_encodeI]
    refine zeroBits_eq_ok_iff.mpr ⟨encodeI_zero_shift _ _ _ _ hwf, ?_⟩
    simp
  case cmpi | lui | movi =>
    rw [encode, decodeWord, opcodeField_encodeI]
    refine zeroBits_eq_ok_iff.mpr ?_
    simp [encodeI_zero_rd, encodeI_zero_rs]
  case bal | beq | bne | bcs | bcc | bmi | bpl | bvs | bvc | bhi | bls | bge | blt | bgt | ble | bod | bev | bnan
      | binf =>
    rw [encode, decodeWord_of_branch (opcodeField_encodeB ..), decodeBranch, condField_encodeB, imm19Field_encodeB]
    rfl
  case jmp | call =>
    rw [encode, decodeWord, opcodeField_encodeJ]
    change Except.ok _ = _
    simp
  all_goals
    rw [encode, decodeWord, opcodeField_encodeR]
    refine zeroBits_eq_ok_iff.mpr ?_
    simp [encodeR_zero_r3, mustBeZero_r2_iff, mustBeZero_rd_iff, mustBeZero_rs_iff, mustBeZero_rss_iff]

/-! ## The round trips -/

/-- Settles O1: each format's fields are read back, and the row's must-be-zero bits are clear. -/
theorem decodeEncode : Obligations.DecodeEncode :=
  fun _ hwf => decode_eq_some_iff_decodeWord.mpr (decodeWord_encode hwf)

/-- Settles O2: the decoder's rows read every bit of the word, as a field or as a bit that must be zero. -/
theorem encodeDecode : Obligations.EncodeDecode :=
  fun _ i h => decodeWord_sound i (decode_eq_some_iff_decodeWord.mp h)

/-- The decoder and the encoder are inverse to each other on well-formed instructions. -/
theorem decode_eq_some_iff {w : Word} {i : Instr} : decode w = some i ↔ encode i = w ∧ i.WellFormed :=
  ⟨encodeDecode w i, fun ⟨henc, hwf⟩ => henc ▸ decodeEncode i hwf⟩

/-- Settles O5: the seven words are the encodings of the instructions beside them. -/
theorem specEncodingExamples : Obligations.SpecEncodingExamples := by
  simp only [Obligations.SpecEncodingExamples, decode_eq_some_iff]
  decide

/-! ## Rows of the opcode map -/

/-- A word that matches a row has the row's opcode and the row's other fixed bits. -/
theorem fields_of_row {w mask row : Word} (hmask : opcodeField mask = 0xFF#8) (h : w &&& mask = row) :
    opcodeField w = opcodeField row ∧ w &&& (mask &&& 0xFFFFFF#32) = row &&& 0xFFFFFF#32 := by
  subst h
  refine ⟨?_, (BitVec.and_assoc ..).symm⟩
  calc opcodeField w = opcodeField w &&& opcodeField mask := by rw [hmask]; exact BitVec.and_allOnes.symm
    _ = opcodeField (w &&& mask) := BitVec.extractLsb'_and.symm

theorem condField_of_row {w row : Word} (h : w &&& 0xFFF80000#32 = row) : condField w = condField row :=
  calc condField w = condField w &&& condField 0xFFF80000#32 := BitVec.and_allOnes.symm
    _ = condField row := by rw [← h]; exact BitVec.extractLsb'_and.symm

/-- A word that matches the row of an instruction decodes, to an instruction of that row. -/
theorem decodeWord_of_row {w : Word} {j : Instr} (h : w &&& (tableRow j).2 = (tableRow j).1) :
    ∃ i, decodeWord w = .ok i ∧ tableRow i = tableRow j := by
  cases j
  all_goals
    simp only [tableRow] at h
    obtain ⟨hop, hz⟩ := fields_of_row (by rfl) h
  case bal | beq | bne | bcs | bcc | bmi | bpl | bvs | bvc | bhi | bls | bge | blt | bgt | ble | bod | bev | bnan
      | binf =>
    rw [decodeWord_of_branch hop, decodeBranch, condField_of_row h]
    exact ⟨_, rfl, rfl⟩
  case jmp | call | addi | andi | ori | xori | ldw | ldh | ldhs | ldb | ldbs | stw | sth | stb | fld | fst =>
    rw [decodeWord, hop]
    exact ⟨_, rfl, rfl⟩
  all_goals
    rw [decodeWord, hop]
    exact ⟨_, if_pos hz, rfl⟩

theorem matches_row_of_decode {w : Word} {i : Instr} (h : decode w = some i) :
    w &&& (tableRow i).2 = (tableRow i).1 := by
  obtain ⟨rfl, hwf⟩ := encodeDecode w i h
  exact Laws.RowMatch.all i hwf

/-- Settles O3. A word that matches two rows decodes to an instruction of each; the decoder is a function, so the two
instructions are one and have one row. -/
theorem decodesWhenRowMatches : Obligations.DecodesWhenRowMatches := by
  refine ⟨fun w => ⟨?_, ?_⟩, fun _ _ => matches_row_of_decode, fun w i j hi hj => ?_⟩
  · rintro ⟨i, h⟩
    exact ⟨i, matches_row_of_decode h⟩
  · rintro ⟨j, h⟩
    obtain ⟨i, hi, -⟩ := decodeWord_of_row h
    exact ⟨i, decode_eq_some_iff_decodeWord.mpr hi⟩
  · obtain ⟨k, hk, hrowi⟩ := decodeWord_of_row hi
    obtain ⟨l, hl, hrowj⟩ := decodeWord_of_row hj
    obtain rfl : k = l := Except.ok.inj (hk.symm.trans hl)
    exact hrowi.symm.trans hrowj

/-! ## Unassigned opcodes and conditions (30_encoding.md R105, R106) -/

theorem toNat_condField (w : Word) : (condField w).toNat = w.toNat / 2 ^ 19 % 2 ^ 5 := by
  rw [condField, BitVec.extractLsb'_toNat, Nat.shiftRight_eq_div_pow]

theorem decodeBranch_assigned {w : Word} (h : (condField w).toNat < 19) : ∃ i, decodeBranch w = .ok i := by
  rw [decodeBranch]
  generalize (condField w).toNat = n at h ⊢
  interval_cases n <;> exact ⟨_, rfl⟩

theorem decodeBranch_unassigned {w : Word} (h : 19 ≤ (condField w).toNat) :
    decodeBranch w = .error (.unassignedCondition (condField w)) := by
  rw [decodeBranch]
  split
  case h_20 => rfl
  all_goals omega

/-- Settles O4: no row of the decoder names such an opcode, and none of the branch rows a condition of 19 or more. -/
theorem unassignedWordsRejected : Obligations.UnassignedWordsRejected := by
  refine ⟨fun w hop => ?_, fun w hop => ?_⟩
  · have hrow : decodeWord w = .error (.unassignedOpcode (opcodeField w)) := by
      rw [decodeWord]
      split
      case h_66 => rfl
      all_goals omega
    exact ⟨hrow, decode_eq_none hrow⟩
  · have hbranch := decodeWord_of_branch (BitVec.eq_of_toNat_eq hop)
    rw [← toNat_condField]
    refine ⟨fun h => ?_, fun h => ?_⟩
    · obtain ⟨i, hi⟩ := decodeBranch_assigned h
      exact ⟨i, decode_eq_some_iff_decodeWord.mpr (hbranch.trans hi)⟩
    · have herr := hbranch.trans (decodeBranch_unassigned h)
      exact ⟨herr, decode_eq_none herr⟩

end Sys2Proof
end

section
/-! SUPPORT. Trap entry in the words of the save area and of the vector table: that it takes the trap of
spec/60_exceptions.md R382 and R383, for every cause. -/

namespace Sys2Proof.Machine

/-! ## Frames between states that share a field -/

theorem SameXBut.of_x_eq {s t : State} (h : t.x = s.x) (named : List XReg) : SameXBut named s t := fun j _ => by
  rw [State.getX, State.getX, h]

theorem SameF.of_f_eq {s t : State} (h : t.f = s.f) : SameF s t := fun j => by rw [State.getF, State.getF, h]

theorem SameMemory.of_mem_eq {s t : State} (h : t.mem = s.mem) : SameMemory s t := fun a => by rw [h]

/-! ## Words of memory -/

theorem State.wordAt_congr {s t : State} {a : Nat}
    (h : ∀ j, j < 4 → Memory.read t.mem (a + j) = Memory.read s.mem (a + j)) : t.wordAt a = s.wordAt a := by
  have h0 : Memory.read t.mem a = Memory.read s.mem a := h 0 (by decide)
  rw [State.wordAt, State.wordAt, h0, h 1 (by decide), h 2 (by decide), h 3 (by decide)]

theorem toNat_add_ofNat {pa : Word} {j : Nat} (h : pa.toNat + j < 2 ^ 32) :
    (pa + BitVec.ofNat 32 j).toNat = pa.toNat + j := by
  rw [BitVec.toNat_add, BitVec.toNat_ofNat]
  omega

/-- Where its four addresses do not wrap, a physical read of a word is the word at its address. -/
theorem State.toNat_physRead_four (s : State) {pa : Word} (hpa : pa.toNat + 3 < 2 ^ 32) :
    (s.physRead pa 4).toNat = s.wordAt pa.toNat := by
  have h1 := toNat_add_ofNat (pa := pa) (j := 1) (by omega)
  have h2 := toNat_add_ofNat (pa := pa) (j := 2) (by omega)
  have h3 := toNat_add_ofNat (pa := pa) (j := 3) (by omega)
  rw [State.toNat_physRead _ _ (by decide), addrsFrom_eq_map]
  simp [State.bytesAt, State.wordAt, List.range_succ, h1, h2, h3]

theorem State.wordAt_physWrite_same (s : State) {pa : Word} (v : Word) (hpa : pa.toNat + 3 < 2 ^ 32) :
    (s.physWrite pa 4 v).wordAt pa.toNat = v.toNat := by
  rw [← State.toNat_physRead_four _ hpa, State.toNat_physRead _ _ (by decide)]
  have hbytes := s.bytesAt_physWrite pa v (i := 0) (n := 4) (m := 4) (by decide) (by decide)
  rw [BitVec.add_zero] at hbytes
  rw [hbytes, byteSum_leBytes]
  exact Nat.mod_eq_of_lt v.isLt

theorem State.wordAt_physWrite_of_disjoint (s : State) {pa : Word} (v : Word) {a : Nat} (hpa : pa.toNat + 3 < 2 ^ 32)
    (h : a + 4 ≤ pa.toNat ∨ pa.toNat + 4 ≤ a) : (s.physWrite pa 4 v).wordAt a = s.wordAt a := by
  refine State.wordAt_congr fun j hj => State.read_physWrite_of_notMem _ _ _ _ _ fun i hi => ?_
  rw [toNat_add_ofNat (by omega)]
  omega

/-! ## Causes -/

theorem toNat_causeCode_line (l : Line) : (causeCode (.line l)).toNat = l.val :=
  Nat.mod_eq_of_lt (by omega)

theorem toNat_causeCode_lt (c : Cause) : (causeCode c).toNat < 11 := by
  cases c with
  | line l => rw [toNat_causeCode_line]; omega
  | pageFault | protectionFault | privilegeFault => decide

/-- The word of the cause and the kind: the cause in bits 7:0, the kind above them (spec/60_exceptions.md R366). -/
theorem toNat_cause_or_kind (c : Cause) {kind : Nat} (hkind : kind < 3) :
    (causeCode c ||| (BitVec.ofNat 32 kind <<< 8)).toNat = (causeCode c).toNat + 256 * kind := by
  have hcode := toNat_causeCode_lt c
  have hshift : (BitVec.ofNat 32 kind <<< 8).toNat = kind <<< 8 := by
    rw [BitVec.toNat_shiftLeft, BitVec.toNat_ofNat, Nat.shiftLeft_eq, Nat.shiftLeft_eq]
    omega
  rw [BitVec.toNat_or, hshift, Nat.lor_comm, ← Nat.shiftLeft_add_eq_or_of_lt (hcode.trans (by decide)), Nat.shiftLeft_eq]
  omega

theorem toNat_vectorAddress (c : Cause) : (vectorAddress c).toNat = 4 * (causeCode c).toNat := by
  have hcode := toNat_causeCode_lt c
  rw [vectorAddress, Config.vectorBase, BitVec.zero_add, BitVec.toNat_shiftLeft, Nat.shiftLeft_eq]
  omega

/-! ## Flags and PENDING after entry -/

theorem toNat_entryFlags_lll (c : Cause) (fs : FlagSet) :
    (entryFlags c fs).lll.toNat = if (causeCode c).toNat < 8 then (causeCode c).toNat else fs.lll.toNat := by
  cases c with
  | line l =>
    rw [toNat_causeCode_line, if_pos l.isLt]
    exact Nat.mod_eq_of_lt l.isLt
  | pageFault | protectionFault | privilegeFault => rfl

theorem entryFlags_results (c : Cause) (fs : FlagSet) :
    (entryFlags c fs).z = fs.z ∧ (entryFlags c fs).v = fs.v ∧ (entryFlags c fs).c = fs.c ∧
      (entryFlags c fs).n = fs.n ∧ (entryFlags c fs).p = fs.p ∧ (entryFlags c fs).a = fs.a ∧
      (entryFlags c fs).f = fs.f := by
  cases c <;> exact ⟨rfl, rfl, rfl, rfl, rfl, rfl, rfl⟩

/-- A single line as a bit of PENDING. -/
theorem getLsbD_lineBit (l : Line) (k : Nat) : (1#8 <<< l.val).getLsbD k = decide (k = l.val) := by
  rw [Bool.eq_iff_iff, BitVec.getLsbD_shiftLeft, BitVec.getLsbD_one]
  simp only [Bool.and_eq_true, Bool.not_eq_true', decide_eq_true_eq, decide_eq_false_iff_not]
  omega

theorem entryPending_of_fault {c : Cause} (h : 8 ≤ (causeCode c).toNat) (p : BitVec 8) : entryPending c p = p := by
  cases c with
  | line l => rw [toNat_causeCode_line] at h; omega
  | pageFault | protectionFault | privilegeFault => rfl

theorem getLsbD_entryPending (c : Cause) (p : BitVec 8) {k : Nat} (hk : k < 8) :
    (entryPending c p).getLsbD k = true ↔ p.getLsbD k = true ∧ k ≠ (causeCode c).toNat := by
  by_cases hc : 8 ≤ (causeCode c).toNat
  · rw [entryPending_of_fault hc]
    exact (and_iff_left (by omega)).symm
  · cases c with
    | line l =>
      rw [entryPending, BitVec.getLsbD_and, BitVec.getLsbD_not, getLsbD_lineBit, toNat_causeCode_line]
      simp [hk]
    | pageFault | protectionFault | privilegeFault => exact absurd (by decide) hc

/-! ## The save area and the entry -/

/-- The four words of the save area after an entry (spec/60_exceptions.md R381, R382). -/
theorem State.wordAt_writeSaveArea (s : State) (c : Cause) (retpc info kind : Word) :
    (s.writeSaveArea c retpc info kind).wordAt 0x40 = retpc.toNat ∧
      (s.writeSaveArea c retpc info kind).wordAt 0x44 = s.flags.toNat ∧
      (s.writeSaveArea c retpc info kind).wordAt 0x48 = (causeCode c ||| (kind <<< 8)).toNat ∧
      (s.writeSaveArea c retpc info kind).wordAt 0x4C = info.toNat := by
  have same (u : State) (pa v : Word) (h : pa.toNat < 0x50) : (u.physWrite pa 4 v).wordAt pa.toNat = v.toNat :=
    u.wordAt_physWrite_same v (by omega)
  have other (u : State) (pa v : Word) (a : Nat) (h : a + 4 ≤ pa.toNat) (hpa : pa.toNat < 0x50) :
      (u.physWrite pa 4 v).wordAt a = u.wordAt a := u.wordAt_physWrite_of_disjoint v (by omega) (.inl h)
  rw [State.writeSaveArea]
  refine ⟨?_, ?_, ?_, same _ 0x4C#32 _ (by decide)⟩
  · rw [other _ (Config.saveBase + 12#32) _ _ (by decide) (by decide),
      other _ (Config.saveBase + 8#32) _ _ (by decide) (by decide),
      other _ (Config.saveBase + 4#32) _ _ (by decide) (by decide)]
    exact same _ 0x40#32 _ (by decide)
  · rw [other _ (Config.saveBase + 12#32) _ _ (by decide) (by decide),
      other _ (Config.saveBase + 8#32) _ _ (by decide) (by decide)]
    exact same _ 0x44#32 _ (by decide)
  · rw [other _ (Config.saveBase + 12#32) _ _ (by decide) (by decide)]
    exact same _ 0x48#32 _ (by decide)

/-- The pc after an entry is the cause's word of the vector table as it was before: the save area is above the table. -/
theorem State.toNat_pc_trapEntry (s : State) (c : Cause) (retpc info kind : Word) :
    (s.trapEntry c retpc info kind).pc.toNat = s.wordAt (4 * (causeCode c).toNat) := by
  have hcode := toNat_causeCode_lt c
  have hvector := toNat_vectorAddress c
  rw [State.pc_trapEntry, State.toNat_physRead_four _ (by omega), hvector]
  exact State.wordAt_congr fun j hj => s.read_writeSaveArea_of_outside c retpc info kind _ (by omega)

/-- A trap entry takes the trap of its cause and kind (spec/60_exceptions.md R382, R383). -/
theorem State.trapEntry_trapTaken (s : State) (c : Cause) (retpc info : Word) {kind : Nat} (hkind : kind < 3) :
    TrapTaken s (s.trapEntry c retpc info (BitVec.ofNat 32 kind)) (causeCode c).toNat kind retpc info := by
  obtain ⟨hretpc, hflags, hcause, hinfo⟩ := s.wordAt_writeSaveArea c retpc info (BitVec.ofNat 32 kind)
  rw [toNat_cause_or_kind c hkind] at hcause
  have hword (a : Nat) : (s.trapEntry c retpc info (BitVec.ofNat 32 kind)).wordAt a =
      (s.writeSaveArea c retpc info (BitVec.ofNat 32 kind)).wordAt a :=
    State.wordAt_congr fun _ _ => by rw [State.trapEntry_mem]
  refine ⟨(hword _).trans hretpc, (hword _).trans hflags, (hword _).trans hcause, (hword _).trans hinfo,
    fun a ha => ?_, s.toNat_pc_trapEntry c retpc info _, fun j hj => ?_, SameF.of_f_eq (s.trapEntry_f ..), ?_, ?_, ?_, ?_,
    fun k hk => ?_, s.trapEntry_memmap .., s.trapEntry_halted .., s.trapEntry_raises ..⟩
  · rw [State.trapEntry_mem, s.read_writeSaveArea_of_outside _ _ _ _ a ha]
  · rw [State.getX_trapEntry, if_neg (fun h => hj (by simp [h]))]
  · simp [State.InHandler]
  · simp [State.ReservedZero]
  · rw [State.flagSet_trapEntry, toNat_entryFlags_lll]
  · rw [State.flagSet_trapEntry]
    exact entryFlags_results c s.flagSet
  · rw [State.trapEntry_pending, getLsbD_entryPending c _ hk]

/-- The trap of a failed access records the fault's cause and kind, the instruction's own address and the failing byte's
address (spec/60_exceptions.md R361, R366). -/
theorem State.accessFault_trapTaken (s : State) (f : AccessFault) :
    TrapTaken s (s.accessFault f) (faultCause f.fault) (faultKind f.kind) s.pc f.va := by
  have hkind : faultKind f.kind < 3 := by cases f.kind <;> decide
  have hcode : (causeCode (mmuCause f.fault)).toNat = faultCause f.fault := by cases f.fault <;> rfl
  have hword : kindCode f.kind = BitVec.ofNat 32 (faultKind f.kind) := by cases f.kind <;> rfl
  rw [State.accessFault, hword, ← hcode]
  exact s.trapEntry_trapTaken _ _ _ hkind

end Sys2Proof.Machine
end

section
/-! SUPPORT. The cycle phase by phase: what is latched, and what a step and a cycle answer in each case of the fetch
and the decoder. What the family of spec/40_engine.md claims. -/

namespace Sys2Proof.Machine

/-! ## The latch (spec/40_engine.md R142) -/

theorem State.getLsbD_latch_pending (s : State) (raise : Option Line) (k : Nat) :
    (s.latch raise).pending.getLsbD k = true ↔
      s.pending.getLsbD k = true ∨ ∃ l : Line, raise = some l ∧ l.val = k := by
  cases raise with
  | none => simp [State.latch]
  | some l =>
    rw [State.latch, State.setPending_pending, BitVec.getLsbD_or, getLsbD_lineBit]
    simp [eq_comm (a := k)]

/-- Raising a line that is already pending changes nothing (spec/60_exceptions.md R370). -/
theorem State.latch_of_pending {s : State} {l : Line} (h : s.pending.getLsbD l.val = true) : s.latch (some l) = s := by
  have hp : s.pending ||| 1#8 <<< l.val = s.pending := by
    apply BitVec.eq_of_getLsbD_eq
    intro k _
    rw [BitVec.getLsbD_or, getLsbD_lineBit]
    by_cases hk : k = l.val
    · rw [hk, h, Bool.true_or]
    · simp [hk]
  rw [State.latch, hp]
  rfl

theorem State.nextRaise_eq_some_iff {s : State} {l : Line} : s.nextRaise = some l ↔ s.raises.head? = some (some l) := by
  rw [State.nextRaise]
  cases s.raises <;> simp

theorem State.getLsbD_begun_pending (s : State) (k : Nat) :
    s.begun.pending.getLsbD k = true ↔
      s.pending.getLsbD k = true ∨ ∃ l : Line, s.raises.head? = some (some l) ∧ l.val = k := by
  rw [State.begun, State.getLsbD_latch_pending]
  simp only [State.nextRaise_eq_some_iff]
  rfl

/-! ## One cycle, phase by phase -/

theorem cycle_of_running {s : State} (h : s.Running) (decoder : Word → Option Instr) (raise : Option Line) :
    cycle decoder raise s = fetchAndExecute decoder (s.latch raise) := by rw [cycle, h]

theorem cycle_of_halted {s : State} (h : s.halted ≠ .running) (decoder : Word → Option Instr) (raise : Option Line) :
    cycle decoder raise s = .next s := by
  rw [cycle]
  split
  · exact absurd ‹_› h
  · rfl
  · rfl

theorem step_of_running {s : State} (h : s.Running) : step s = fetchAndExecute decode s.begun := by
  rw [step, scheduledCycle, h]
  exact cycle_of_running (s := s.consumeRaise) h decode s.nextRaise

theorem step_of_halted {s : State} (h : s.halted ≠ .running) : step s = .next s := by
  rw [step, scheduledCycle]
  split
  · exact absurd ‹_› h
  · rfl
  · rfl

theorem fetchAndExecute_of_fault {s : State} {f : AccessFault} (h : s.fetch = .error f)
    (decoder : Word → Option Instr) : fetchAndExecute decoder s = .next (s.accessFault f) := by
  rw [fetchAndExecute, h]

theorem fetchAndExecute_of_invalid {decoder : Word → Option Instr} {s : State} {w : Word} (h : s.fetch = .ok w)
    (hdecode : decoder w = none) : fetchAndExecute decoder s = .next (s.haltInvalid w) := by
  simp only [fetchAndExecute, h, hdecode]

theorem fetchAndExecute_of_decoded {decoder : Word → Option Instr} {s t : State} {w : Word} {i : Instr}
    (h : s.fetch = .ok w) (hdecode : decoder w = some i) (hexec : exec i s = .next t) :
    fetchAndExecute decoder s = .next t.checkpoint := by
  simp only [fetchAndExecute, h, hdecode, hexec, finish]

/-- Every cycle of a running core answers a next state, whatever the fetch, the decoder and the instruction answer. -/
theorem fetchAndExecute_answers (decoder : Word → Option Instr) (s : State) :
    ∃ t, fetchAndExecute decoder s = .next t := by
  cases hfetch : s.fetch with
  | error f => exact ⟨_, fetchAndExecute_of_fault hfetch decoder⟩
  | ok w =>
    cases hdecode : decoder w with
    | none => exact ⟨_, fetchAndExecute_of_invalid hfetch hdecode⟩
    | some i =>
      obtain ⟨t, hexec, -⟩ := exec_answers i s
      exact ⟨_, fetchAndExecute_of_decoded hfetch hdecode hexec⟩

/-- A virtual read fails just where one of its translations does. -/
theorem State.readVirtual_eq_error_iff {s : State} {k : AccessKind} {va : Word} {n : Nat} {f : AccessFault} :
    s.readVirtual k va n = .error f ↔ s.translateBytes k va n = .error f := by
  rw [State.readVirtual]
  cases s.translateBytes k va n <;> simp

/-- A failing fetch fails with kind Execute (spec/40_engine.md R143). -/
theorem State.kind_of_fetch_error {s : State} {f : AccessFault} (h : s.fetch = .error f) : f.kind = .execute :=
  (State.translateBytes_error (State.readVirtual_eq_error_iff.mp h)).1

/-- With every line masked the checkpoint takes none. -/
theorem State.checkpoint_of_mask_zero {s : State} (h : s.flagSet.mask = 0#8) : s.checkpoint = s := by
  obtain heq | ⟨l, -, hline, -⟩ := s.checkpoint_cases
  · exact heq
  · exact nomatch (State.eligibleLine_of_mask_zero h).symm.trans hline

/-! ## The flags categories (spec/40_engine.md R153, R154) -/

/-- Every Int instruction answers, with the integer-result update of the flags. -/
theorem exec_of_category_int {i : Instr} (hi : category i = .int) (s : State) :
    ∃ t res, exec i s = .next t ∧ t.flagSet = s.flagSet.afterInt res := by
  cases i
  case cmp | cmpi => exact ⟨_, _, rfl, s.flagSet_retireCompare _⟩
  case add | sub | mul | divu | divs | remu | rems | and | or | xor | shl | shr | sar | mov | not | addi | andi | ori
      | xori | shli | shri | sari | lui | movi | ftoi | movfx | feq | flt | fle =>
    exact ⟨_, _, rfl, s.flagSet_retireInt _ _⟩
  all_goals cases hi

/-- Every Float instruction answers, with the float-result update of the flags. -/
theorem exec_of_category_float {i : Instr} (hi : category i = .float) (s : State) :
    ∃ t b, exec i s = .next t ∧ t.flagSet = s.flagSet.afterFloat b := by
  cases i
  case fadd | fsub | fmul | fdiv | fmov | itof | movxf => exact ⟨_, _, rfl, s.flagSet_retireFloat _ _⟩
  all_goals cases hi

/-! ## The claims -/

/-- Settles O41: the trap of a failed access, taken on the state the step begins with, whose pc is that of `s`. -/
theorem fetchFaultTraps : Obligations.FetchFaultTraps := by
  intro s f hrun hfetch
  have hkind := State.kind_of_fetch_error hfetch
  have htrap := s.begun.accessFault_trapTaken f
  rw [hkind, State.begun_pc] at htrap
  exact ⟨hkind, _, (step_of_running hrun).trans (fetchAndExecute_of_fault hfetch decode), htrap⟩

/-- Settles O42: a halted core answers itself, a running core whatever its cycle answers. -/
theorem everyStepAnswers : Obligations.EveryStepAnswers := by
  intro s
  by_cases hrun : s.Running
  · rw [step_of_running hrun]
    exact fetchAndExecute_answers decode s.begun
  · exact ⟨s, step_of_halted hrun⟩

/-- Settles O44: the update of each category writes none of the other's fields. -/
theorem flagsAreExclusive : Obligations.FlagsAreExclusive := by
  intro i s t hexec
  refine ⟨fun hint => ?_, fun hfloat => ?_⟩
  · obtain ⟨u, res, hu, hflags⟩ := exec_of_category_int hint s
    obtain rfl : u = t := Host.Outcome.next.inj (hu.symm.trans hexec)
    rw [hflags]
    exact ⟨rfl, rfl⟩
  · obtain ⟨u, b, hu, hflags⟩ := exec_of_category_float hfloat s
    obtain rfl : u = t := Host.Outcome.next.inj (hu.symm.trans hexec)
    rw [hflags]
    exact ⟨rfl, rfl, rfl, rfl, rfl⟩

/-- Settles O48: the entry masks every line before the checkpoint looks, and a fault's entry clears no PENDING bit. -/
theorem faultBeatsLines : Obligations.FaultBeatsLines := by
  intro s w i c retpc info kind hrun hcause hfetch hdecode hexec
  have hmask : (s.begun.trapEntry c retpc info kind).flagSet.mask = 0#8 := by
    rw [State.flagSet_trapEntry, entryFlags_mask]
  constructor
  · rw [step_of_running hrun, fetchAndExecute_of_decoded hfetch hdecode hexec, State.checkpoint_of_mask_zero hmask]
  · rw [State.trapEntry_pending, entryPending_of_fault hcause]

/-- Settles O38: the frame of the latch, and the decoded case of the cycle, for the step and for any decoder. -/
theorem stepRunsDecoded : Obligations.StepRunsDecoded := by
  refine ⟨fun s => ?_, fun s t w i hrun hfetch hdecode hexec => ?_,
    fun decoder raise s t w i hrun hfetch hdecode hexec => ?_⟩
  · exact ⟨fun k _ => s.getLsbD_begun_pending k, s.begun_raises, SameXBut.of_x_eq s.begun_x [],
      SameF.of_f_eq s.begun_f, s.begun_flags, s.begun_memmap, s.begun_halted, s.begun_mem⟩
  · rw [step_of_running hrun, fetchAndExecute_of_decoded hfetch hdecode hexec]
  · rw [cycle_of_running hrun, fetchAndExecute_of_decoded hfetch hdecode hexec]

/-- Settles O39: neither the step nor the cycle reaches the latch. -/
theorem haltedCoreIsFrozen : Obligations.HaltedCoreIsFrozen :=
  fun _ h => ⟨step_of_halted h, cycle_of_halted h⟩

/-- Settles O40: the halt changes HALTED alone on the state the step begins with. -/
theorem invalidOpcodeHalts : Obligations.InvalidOpcodeHalts := by
  intro s w hrun hfetch hdecode
  refine ⟨s.begun.haltInvalid w, (step_of_running hrun).trans (fetchAndExecute_of_invalid hfetch hdecode), ?_,
    SameXBut.of_x_eq s.begun_x [], SameF.of_f_eq s.begun_f, s.begun_flags, s.begun_memmap, rfl, rfl,
    SameMemory.of_mem_eq s.begun_mem⟩
  rw [State.haltInvalid, State.setHalted_halted, State.begun_pc]
  rfl

/-- Settles O43: the latched state is the witness, and latching a pending line is the identity. -/
theorem raiseIsLatched : Obligations.RaiseIsLatched := by
  intro s l decoder hrun
  have hlatched : (s.latch (some l)).Running := (s.latch_halted _).trans hrun
  refine ⟨⟨s.latch (some l), SameXBut.of_x_eq (s.latch_x _) [], SameF.of_f_eq (s.latch_f _), s.latch_flags _,
    s.latch_memmap _, s.latch_halted _, s.latch_mem _, s.latch_raises _, fun k _ => ?_, ?_⟩, fun hpending => ?_⟩
  · rw [State.getLsbD_latch_pending]
    simp [eq_comm (a := k)]
  · rw [cycle_of_running hrun, cycle_of_running hlatched]
    rfl
  · rw [cycle_of_running hrun, cycle_of_running hrun, State.latch_of_pending hpending]
    rfl

end Sys2Proof.Machine
end

section
/-! SUPPORT. The integer operations in the numbers their operands stand for, and the one completion that every integer
instruction makes with them. What the family of spec/41_integer.md claims. -/

namespace Sys2Proof

/-! ## The words of formats R and I (spec/30_encoding.md R101) -/

theorem toNat_append_eq {m n : Nat} (x : BitVec m) (y : BitVec n) : (x ++ y).toNat = x.toNat * 2 ^ n + y.toNat := by
  rw [BitVec.toNat_append, ← Nat.shiftLeft_add_eq_or_of_lt y.isLt, Nat.shiftLeft_eq]

@[simp] theorem toNat_regBits (r : Fin 16) : (regBits r).toNat = r.val := rfl

theorem toNat_encodeR (op : BitVec 8) (rd rs1 rs2 : Fin 16) : (encodeR op rd rs1 rs2).toNat =
    op.toNat * 2 ^ 24 + rd.val * 2 ^ 20 + rs1.val * 2 ^ 16 + rs2.val * 2 ^ 12 := by
  simp only [encodeR, toNat_append_eq, toNat_regBits, BitVec.toNat_zero]
  omega

theorem toNat_encodeI (op : BitVec 8) (rd rs1 : Fin 16) (imm : BitVec 16) : (encodeI op rd rs1 imm).toNat =
    op.toNat * 2 ^ 24 + rd.val * 2 ^ 20 + rs1.val * 2 ^ 16 + imm.toNat := by
  simp only [encodeI, toNat_append_eq, toNat_regBits]
  omega

/-! ## The rows of the immediate shifts (spec/30_encoding.md R103, R104) -/

theorem toNat_opcodeField (w : Word) : (opcodeField w).toNat = w.toNat / 2 ^ 24 := by
  rw [opcodeField, BitVec.extractLsb'_toNat, Nat.shiftRight_eq_div_pow]
  omega

theorem shiftMask_ne_zero {w : Word} (h : 32 ≤ w.toNat % 2 ^ 16) : w &&& 0x00FFE0#32 ≠ 0#32 := by
  intro hzero
  have hfield := congrArg BitVec.toNat ((and_fieldMask_eq_zero_iff w (start := 5) (len := 11) (by decide)).mp hzero)
  rw [BitVec.extractLsb'_toNat, Nat.shiftRight_eq_div_pow, BitVec.toNat_zero] at hfield
  omega

theorem zeroBits_of_ne {w z : Word} (h : w &&& z ≠ 0#32) (i : Instr) : zeroBits w z i = .error (.reservedBitsSet w) :=
  if_neg h

/-- A word of SHLI, SHRI or SARI with a bit set in 15:5 is rejected. -/
theorem decodeWord_of_wide_shift {w : Word} (hlow : 0x24 ≤ w.toNat / 2 ^ 24) (hhigh : w.toNat / 2 ^ 24 ≤ 0x26)
    (h : 32 ≤ w.toNat % 2 ^ 16) : decodeWord w = .error (.reservedBitsSet w) := by
  have hmask := shiftMask_ne_zero h
  rw [decodeWord, toNat_opcodeField]
  generalize w.toNat / 2 ^ 24 = op at hlow hhigh
  interval_cases op <;> exact zeroBits_of_ne hmask _

/-! ## Bits of a value as numbers -/

theorem getLsbD_iff_div_mod {w : Nat} (v : BitVec w) (i : Nat) : v.getLsbD i = true ↔ v.toNat / 2 ^ i % 2 = 1 := by
  rw [BitVec.getLsbD, Nat.testBit_eq_decide_div_mod_eq, decide_eq_true_iff]

end Sys2Proof

namespace Sys2Proof.Machine

/-! ## The sign bit of a word -/

theorem getLsbD_31_iff_toNat (v : Word) : v.getLsbD 31 = true ↔ 2 ^ 31 ≤ v.toNat := by
  rw [getLsbD_iff_div_mod]
  omega

theorem getLsbD_31_eq_msb (v : Word) : v.getLsbD 31 = v.msb := (BitVec.msb_eq_getLsbD_last v).symm

/-! ## What an operation gives, and what the instruction then completes with -/

/-- The operation gives the result `r`, the carry `c` and the overflow `v`. -/
structure IntResult.Gives (res : IntResult) (r : Word) (c v : Prop) : Prop where
  result : res.r = r
  carry : res.c = true ↔ c
  overflow : res.v = true ↔ v

/-- The integer-result update of Retire in the terms of the statements (spec/40_engine.md R153). -/
theorem intFlags_of_afterInt {s t : State} {res : IntResult} {r : Word} {c v : Prop} (hres : res.Gives r c v)
    (hflags : t.flagSet = s.flagSet.afterInt res) (hzero : t.ReservedZero) : IntFlags s t r c v := by
  obtain ⟨rfl, hc, hv⟩ := hres
  have hz : (res.r == 0#32) = true ↔ res.r = 0#32 := beq_iff_eq
  have hp : res.r.getLsbD 0 = true ↔ res.r.toNat % 2 = 1 := by rw [getLsbD_iff_div_mod, pow_zero, Nat.div_one]
  rw [IntFlags, hflags]
  exact ⟨hz, getLsbD_31_iff_toNat _, hp, hc, hv, rfl, rfl, rfl, rfl, rfl, rfl, hzero⟩

/-- An instruction that retires with a destination completes with what its operation gives. -/
theorem completesInt_of_retireInt {i : Instr} {s : State} {xd : XReg} {res : IntResult} {r : Word} {c v : Prop}
    (hexec : exec i s = .next (s.retireInt xd res)) (hres : res.Gives r c v) : CompletesInt i s xd r c v := by
  refine ⟨_, hexec, ⟨?_, fun hpc => ?_, fun j hj => ?_⟩,
    intFlags_of_afterInt hres (s.flagSet_retireInt xd res) (intFlags_reserved ..), SameF.of_f_eq rfl, ⟨rfl, rfl, rfl⟩,
    rfl, SameMemory.of_mem_eq rfl⟩
  · rw [State.getX_retireInt, if_pos rfl, hres.result]
  · rw [State.getX_retireInt, if_neg hpc, if_pos rfl, State.pc]
  · simp only [List.mem_cons, List.not_mem_nil, or_false, not_or] at hj
    rw [State.getX_retireInt, if_neg (Ne.symm hj.1), if_neg (Ne.symm hj.2)]

/-- An instruction that retires with flags alone completes with what its operation gives. -/
theorem completesCompare_of_retireCompare {i : Instr} {s : State} {res : IntResult} {r : Word} {c v : Prop}
    (hexec : exec i s = .next (s.retireCompare res)) (hres : res.Gives r c v) : CompletesCompare i s r c v := by
  refine ⟨_, hexec, ⟨?_, fun j hj => ?_, SameF.of_f_eq rfl⟩,
    intFlags_of_afterInt hres (s.flagSet_retireCompare res) (intFlags_reserved ..), ⟨rfl, rfl, rfl⟩, rfl,
    SameMemory.of_mem_eq rfl⟩
  · rw [State.getX_retireCompare, if_pos rfl, State.pc]
  · rw [List.mem_singleton] at hj
    rw [State.getX_retireCompare, if_neg (Ne.symm hj)]

/-! ## Sum and difference (spec/41_integer.md R172, R174, R175) -/

theorem add_eq_ofNat (a b : Word) : a + b = BitVec.ofNat 32 (a.toNat + b.toNat) := by
  rw [BitVec.ofNat_add, BitVec.ofNat_toNat, BitVec.ofNat_toNat, BitVec.setWidth_eq, BitVec.setWidth_eq]

theorem sub_eq_ofInt (a b : Word) : a - b = BitVec.ofInt 32 ((a.toNat : Int) - b.toNat) := by
  rw [Int.sub_eq_add_neg, BitVec.ofInt_add, BitVec.ofInt_neg, BitVec.ofInt_natCast, BitVec.ofInt_natCast,
    BitVec.ofNat_toNat, BitVec.ofNat_toNat, BitVec.setWidth_eq, BitVec.setWidth_eq, BitVec.sub_eq_add_neg]

theorem aluAdd_gives (a b : Word) :
    (aluAdd a b).Gives (BitVec.ofNat 32 (a.toNat + b.toNat)) (2 ^ 32 ≤ a.toNat + b.toNat)
      (a.getLsbD 31 = b.getLsbD 31 ∧ (BitVec.ofNat 32 (a.toNat + b.toNat)).getLsbD 31 ≠ a.getLsbD 31) := by
  rw [← add_eq_ofNat]
  exact ⟨rfl, decide_eq_true_iff, by simp only [aluAdd, addOverflow, Bool.and_eq_true, beq_iff_eq, bne_iff_ne]⟩

theorem aluSub_gives (a b : Word) :
    (aluSub a b).Gives (BitVec.ofInt 32 ((a.toNat : Int) - b.toNat)) (a.toNat < b.toNat)
      (a.getLsbD 31 ≠ b.getLsbD 31 ∧
        (BitVec.ofInt 32 ((a.toNat : Int) - b.toNat)).getLsbD 31 ≠ a.getLsbD 31) := by
  rw [← sub_eq_ofInt]
  exact ⟨rfl, decide_eq_true_iff, by simp only [aluSub, subOverflow, Bool.and_eq_true, bne_iff_ne]⟩

/-- The sign extension of an immediate is its signed value as a word, by definition. -/
theorem simm16_eq_ofInt (imm : BitVec 16) : simm16 imm = BitVec.ofInt 32 imm.toInt := rfl

/-- Settles O6: the sum and the difference of the operands, for the immediate after its sign extension. -/
theorem addSubtractEffect : Obligations.AddSubtractEffect :=
  ⟨fun _ _ _ _ =>
    ⟨toNat_encodeR .., completesInt_of_retireInt rfl (aluAdd_gives ..),
      toNat_encodeR .., completesInt_of_retireInt rfl (aluSub_gives ..)⟩,
    fun _ _ _ imm => ⟨toNat_encodeI .., completesInt_of_retireInt rfl (simm16_eq_ofInt imm ▸ aluAdd_gives ..)⟩⟩

/-- Settles O7: the difference again, retired with flags alone. -/
theorem compareEffect : Obligations.CompareEffect :=
  ⟨fun _ _ _ => ⟨toNat_encodeR .., completesCompare_of_retireCompare rfl (aluSub_gives ..)⟩,
    fun _ _ imm =>
      ⟨toNat_encodeI .., completesCompare_of_retireCompare rfl (simm16_eq_ofInt imm ▸ aluSub_gives ..)⟩⟩

/-! ## Signed overflow (spec/41_integer.md R171, R172) -/

/-- The sign rule for sums is the library's signed overflow: the exact sum is outside the range of a word. -/
theorem addOverflow_eq_saddOverflow (a b : Word) : addOverflow a b (a + b) = a.saddOverflow b := by
  rw [BitVec.saddOverflow_eq, addOverflow, getLsbD_31_eq_msb, getLsbD_31_eq_msb, getLsbD_31_eq_msb]
  rfl

/-- The sign rule for differences is the library's signed overflow: the exact difference is outside the range. -/
theorem subOverflow_eq_ssubOverflow (a b : Word) : subOverflow a b (a - b) = a.ssubOverflow b := by
  rw [BitVec.ssubOverflow_eq, subOverflow, getLsbD_31_eq_msb, getLsbD_31_eq_msb, getLsbD_31_eq_msb]
  cases a.msb <;> cases b.msb <;> cases (a - b).msb <;> rfl

theorem aluAdd_v_iff (a b : Word) :
    (aluAdd a b).v = true ↔ a.toInt + b.toInt < -2 ^ 31 ∨ 2 ^ 31 ≤ a.toInt + b.toInt := by
  rw [aluAdd, addOverflow_eq_saddOverflow, BitVec.saddOverflow, Bool.or_eq_true, decide_eq_true_iff,
    decide_eq_true_iff, or_comm]

theorem aluSub_v_iff (a b : Word) :
    (aluSub a b).v = true ↔ a.toInt - b.toInt < -2 ^ 31 ∨ 2 ^ 31 ≤ a.toInt - b.toInt := by
  rw [aluSub, subOverflow_eq_ssubOverflow, BitVec.ssubOverflow, Bool.or_eq_true, decide_eq_true_iff,
    decide_eq_true_iff, or_comm]

theorem toInt_aluAdd_of_v_clear {a b : Word} (h : (aluAdd a b).v = false) :
    (aluAdd a b).r.toInt = a.toInt + b.toInt := by
  have hov : a.saddOverflow b = false := (addOverflow_eq_saddOverflow a b).symm.trans h
  exact BitVec.toInt_add_of_not_saddOverflow (by simp [hov])

theorem toInt_aluSub_of_v_clear {a b : Word} (h : (aluSub a b).v = false) :
    (aluSub a b).r.toInt = a.toInt - b.toInt := by
  have hov : a.ssubOverflow b = false := (subOverflow_eq_ssubOverflow a b).symm.trans h
  exact BitVec.toInt_sub_of_not_ssubOverflow (by simp [hov])

theorem toInt_simm16 (imm : BitVec 16) : (simm16 imm).toInt = imm.toInt := BitVec.toInt_signExtend_of_le (by decide)

/-- What an integer instruction leaves in its destination is its operation's result. -/
theorem State.getX_retireInt_same (s : State) (xd : XReg) (res : IntResult) : (s.retireInt xd res).getX xd = res.r := by
  rw [State.getX_retireInt, if_pos rfl]

/-- Settles O9: the sign rules of R172 are signed overflow, and without it the operation is exact. -/
theorem overflowIsSigned : Obligations.OverflowIsSigned := by
  refine ⟨fun s t xd xs1 xs2 h => ?_, fun s t xd xs imm h => ?_, fun s t xd xs1 xs2 h => ?_⟩
  all_goals
    obtain rfl := Host.Outcome.next.inj h
    rw [State.flagSet_retireInt, State.getX_retireInt_same]
  · exact ⟨aluAdd_v_iff _ _, toInt_aluAdd_of_v_clear⟩
  · rw [← toInt_simm16 imm]
    exact ⟨aluAdd_v_iff _ _, toInt_aluAdd_of_v_clear⟩
  · exact ⟨aluSub_v_iff _ _, toInt_aluSub_of_v_clear⟩

/-! ## The order after a comparison (spec/43_control.md R261 to R276) -/

theorem aluSub_z_iff (a b : Word) : ((aluSub a b).r == 0#32) = true ↔ a = b := by
  rw [beq_iff_eq, aluSub, BitVec.sub_eq_iff_eq_add, BitVec.zero_add]

/-- The sign of a difference, corrected by its overflow, is the signed order of the operands. -/
theorem aluSub_n_ne_v_iff (a b : Word) :
    ((aluSub a b).r.getLsbD 31 != (aluSub a b).v) = true ↔ a.toInt < b.toInt := by
  have hv := aluSub_v_iff a b
  have hn : (aluSub a b).r.getLsbD 31 = true ↔ (a.toInt - b.toInt).bmod (2 ^ 32) < 0 := by
    rw [getLsbD_31_eq_msb, BitVec.msb_eq_toInt, decide_eq_true_iff, aluSub, BitVec.toInt_sub]
  have ha := a.toInt_lt
  have ha' := a.le_toInt
  have hb := b.toInt_lt
  have hb' := b.le_toInt
  rw [Int.bmod_def] at hn
  rw [bne_iff_ne, Ne, Bool.eq_iff_iff, hv, hn]
  omega

theorem conditions_after_aluSub (fs : FlagSet) (a b : Word) :
    let after := fs.afterInt (aluSub a b)
    (condHolds after .eq = true ↔ a = b) ∧ (condHolds after .ne = true ↔ a ≠ b) ∧
      (condHolds after .cs = true ↔ a.toNat < b.toNat) ∧ (condHolds after .cc = true ↔ b.toNat ≤ a.toNat) ∧
      (condHolds after .hi = true ↔ b.toNat < a.toNat) ∧ (condHolds after .ls = true ↔ a.toNat ≤ b.toNat) ∧
      (condHolds after .lt = true ↔ a.toInt < b.toInt) ∧ (condHolds after .ge = true ↔ b.toInt ≤ a.toInt) ∧
      (condHolds after .gt = true ↔ b.toInt < a.toInt) ∧ (condHolds after .le = true ↔ a.toInt ≤ b.toInt) := by
  intro after
  have hz : after.z = true ↔ a = b := aluSub_z_iff a b
  have hc : after.c = true ↔ a.toNat < b.toNat := decide_eq_true_iff
  have hlt : (after.n != after.v) = true ↔ a.toInt < b.toInt := aluSub_n_ne_v_iff a b
  have hge : (after.n == after.v) = true ↔ b.toInt ≤ a.toInt := by
    rw [← not_lt, ← hlt, bne_iff_ne, not_not, beq_iff_eq]
  have hnat : a = b ↔ a.toNat = b.toNat := BitVec.toNat_inj.symm
  have hint : a = b ↔ a.toInt = b.toInt := BitVec.toInt_inj.symm
  simp only [condHolds, Bool.and_eq_true, Bool.or_eq_true, Bool.not_eq_true', ← Bool.not_eq_true, hz, hc, hlt, hge,
    true_and]
  refine ⟨not_lt, ?_, ?_, ?_, ?_⟩
  · rw [hnat]; omega
  · rw [hnat]; omega
  · rw [hint]; omega
  · rw [hint]; omega

/-- Settles O8: Z is equality, C the unsigned order, and N against V the signed order. -/
theorem conditionsAfterCompare : Obligations.ConditionsAfterCompare := by
  intro s t xs1 xs2 h
  obtain rfl := Host.Outcome.next.inj h
  rw [State.flagSet_retireCompare]
  exact conditions_after_aluSub _ _ _

/-! ## Product (spec/41_integer.md R176) -/

theorem mulOverflow_iff (a b : Word) :
    mulOverflow a b = true ↔ a.toInt * b.toInt < -2 ^ 31 ∨ 2 ^ 31 ≤ a.toInt * b.toInt := by
  rw [mulOverflow, decide_eq_true_iff, Int.sub_one_lt_iff]

theorem aluMul_gives (a b : Word) :
    (aluMul a b).Gives (BitVec.ofNat 32 (a.toNat * b.toNat)) (2 ^ 32 ≤ a.toNat * b.toNat)
      (a.toInt * b.toInt < -2 ^ 31 ∨ 2 ^ 31 ≤ a.toInt * b.toInt) :=
  ⟨rfl, decide_eq_true_iff, mulOverflow_iff a b⟩

/-- Settles O10: the low word of the product, and the carry and overflow of its two readings. -/
theorem mulEffect : Obligations.MulEffect :=
  fun _ _ _ _ => ⟨toNat_encodeR .., completesInt_of_retireInt rfl (aluMul_gives ..)⟩

/-! ## Quotient and remainder (spec/41_integer.md R177 to R180) -/

theorem aluPlain_gives (r : Word) : (aluPlain r).Gives r False False := ⟨rfl, by simp [aluPlain], by simp [aluPlain]⟩

/-- The special cases of a division clear C and set V. -/
theorem divisionSpecial_gives (r : Word) : IntResult.Gives ⟨r, false, true⟩ r False True := ⟨rfl, by simp, by simp⟩

theorem aluDivu_of_zero {b : Word} (hb : b = 0#32) (a : Word) : aluDivu a b = ⟨0xFFFFFFFF#32, false, true⟩ :=
  if_pos hb

theorem aluRemu_of_zero {b : Word} (hb : b = 0#32) (a : Word) : aluRemu a b = ⟨a, false, true⟩ := if_pos hb

theorem aluDivs_of_zero {b : Word} (hb : b = 0#32) (a : Word) : aluDivs a b = ⟨0xFFFFFFFF#32, false, true⟩ :=
  if_pos hb

theorem aluRems_of_zero {b : Word} (hb : b = 0#32) (a : Word) : aluRems a b = ⟨a, false, true⟩ := if_pos hb

theorem aluDivs_of_overflow {a b : Word} (ha : a = 0x80000000#32) (hb : b = 0xFFFFFFFF#32) :
    aluDivs a b = ⟨0x80000000#32, false, true⟩ := by rw [ha, hb]; rfl

theorem aluRems_of_overflow {a b : Word} (ha : a = 0x80000000#32) (hb : b = 0xFFFFFFFF#32) :
    aluRems a b = ⟨0#32, false, true⟩ := by rw [ha, hb]; rfl

theorem aluDivu_of_ne {b : Word} (hb : b ≠ 0#32) (a : Word) :
    aluDivu a b = aluPlain (BitVec.ofNat 32 (a.toNat / b.toNat)) := if_neg hb

theorem aluRemu_of_ne {b : Word} (hb : b ≠ 0#32) (a : Word) :
    aluRemu a b = aluPlain (BitVec.ofNat 32 (a.toNat % b.toNat)) := if_neg hb

theorem aluDivs_of_ne {a b : Word} (hb : b ≠ 0#32) (hab : ¬(a = 0x80000000#32 ∧ b = 0xFFFFFFFF#32)) :
    aluDivs a b = aluPlain (BitVec.ofInt 32 (a.toInt.tdiv b.toInt)) := by
  rw [aluDivs, if_neg hb, if_neg hab, aluPlain]

/-- The remainder the model computes from the truncated quotient is the library's. -/
theorem aluRems_of_ne {a b : Word} (hb : b ≠ 0#32) (hab : ¬(a = 0x80000000#32 ∧ b = 0xFFFFFFFF#32)) :
    aluRems a b = aluPlain (BitVec.ofInt 32 (a.toInt.tmod b.toInt)) := by
  rw [aluRems, if_neg hb, if_neg hab, aluPlain, Int.tmod_def, Int.mul_comm]

/-- Settles O11: DIVU and REMU in the two cases of the divisor. -/
theorem unsignedDivisionEffect : Obligations.UnsignedDivisionEffect :=
  fun _ _ _ _ =>
    ⟨toNat_encodeR .., toNat_encodeR ..,
      fun hb =>
        ⟨completesInt_of_retireInt rfl (aluDivu_of_zero hb _ ▸ divisionSpecial_gives _),
          completesInt_of_retireInt rfl (aluRemu_of_zero hb _ ▸ divisionSpecial_gives _)⟩,
      fun hb =>
        ⟨completesInt_of_retireInt rfl (aluDivu_of_ne hb _ ▸ aluPlain_gives _),
          completesInt_of_retireInt rfl (aluRemu_of_ne hb _ ▸ aluPlain_gives _)⟩⟩

/-- Settles O12: DIVS and REMS in the three cases of the operands. -/
theorem signedDivisionEffect : Obligations.SignedDivisionEffect :=
  fun _ _ _ _ =>
    ⟨toNat_encodeR .., toNat_encodeR ..,
      fun hb =>
        ⟨completesInt_of_retireInt rfl (aluDivs_of_zero hb _ ▸ divisionSpecial_gives _),
          completesInt_of_retireInt rfl (aluRems_of_zero hb _ ▸ divisionSpecial_gives _)⟩,
      fun ha hb =>
        ⟨completesInt_of_retireInt rfl (aluDivs_of_overflow ha hb ▸ divisionSpecial_gives _),
          completesInt_of_retireInt rfl (aluRems_of_overflow ha hb ▸ divisionSpecial_gives _)⟩,
      fun hb hab =>
        ⟨completesInt_of_retireInt rfl (aluDivs_of_ne hb hab ▸ aluPlain_gives _),
          completesInt_of_retireInt rfl (aluRems_of_ne hb hab ▸ aluPlain_gives _)⟩⟩

/-- The one quotient a word cannot hold is that of -2^31 by -1. -/
theorem toInt_ofInt_tdiv {a b : Word} (hab : ¬(a = 0x80000000#32 ∧ b = 0xFFFFFFFF#32)) :
    (BitVec.ofInt 32 (a.toInt.tdiv b.toInt)).toInt = a.toInt.tdiv b.toInt := by
  rw [← BitVec.toInt_sdiv_of_ne_or_ne a b (not_and_or.mp hab), BitVec.ofInt_toInt]

theorem toInt_ofInt_tmod (a b : Word) : (BitVec.ofInt 32 (a.toInt.tmod b.toInt)).toInt = a.toInt.tmod b.toInt := by
  rw [← BitVec.toInt_srem, BitVec.ofInt_toInt]

/-- The law of truncating division: the remainder is smaller than the divisor and takes the dividend's sign. -/
theorem tdiv_tmod_law {a b : Int} (hb : b ≠ 0) :
    a = a.tdiv b * b + a.tmod b ∧ (a.tmod b).natAbs < b.natAbs ∧
      (a.tmod b = 0 ∨ (0 < a.tmod b ∧ 0 < a) ∨ (a.tmod b < 0 ∧ a < 0)) := by
  have hsize : (a.tmod b).natAbs < b.natAbs := by
    rw [Int.natAbs_tmod]
    exact Nat.mod_lt _ (by omega)
  have hsum := Int.mul_tdiv_add_tmod a b
  refine ⟨by rw [Int.mul_comm, hsum], hsize, ?_⟩
  obtain ha | rfl | ha := lt_trichotomy a 0
  · have hneg := Int.tmod_nonneg b (a := -a) (by omega)
    rw [Int.neg_tmod] at hneg
    omega
  · exact .inl (Int.zero_tmod b)
  · have hpos := Int.tmod_nonneg b ha.le
    omega

/-- Settles O13: outside the special cases both results are the exact ones, and those obey the law. -/
theorem divisionLaw : Obligations.DivisionLaw := by
  intro s t u xd xs1 xs2 hdivs hrems
  obtain rfl := Host.Outcome.next.inj hdivs
  obtain rfl := Host.Outcome.next.inj hrems
  intro a b q r hb hab
  have hb' : s.getX xs2 ≠ 0#32 := fun h => hb (congrArg BitVec.toInt h)
  have hab' : ¬(s.getX xs1 = 0x80000000#32 ∧ s.getX xs2 = 0xFFFFFFFF#32) :=
    fun ⟨h1, h2⟩ => hab ⟨congrArg BitVec.toInt h1, congrArg BitVec.toInt h2⟩
  have hq : q = a.tdiv b := by
    simp only [q, State.getX_retireInt_same]
    rw [aluDivs_of_ne hb' hab']
    exact toInt_ofInt_tdiv hab'
  have hr : r = a.tmod b := by
    simp only [r, State.getX_retireInt_same]
    rw [aluRems_of_ne hb' hab']
    exact toInt_ofInt_tmod _ _
  rw [hq, hr]
  exact tdiv_tmod_law hb

/-! ## Bitwise operations and moves (spec/41_integer.md R181 to R183, R188 to R193, R198, R199) -/

theorem uimm16_eq_ofNat (imm : BitVec 16) : uimm16 imm = BitVec.ofNat 32 imm.toNat := (BitVec.ofNat_toNat 32 imm).symm

theorem upperImm_eq_ofNat (imm : BitVec 16) : upperImm imm = BitVec.ofNat 32 (imm.toNat * 2 ^ 16) := by
  apply BitVec.eq_of_toNat_eq
  rw [upperImm, BitVec.toNat_shiftLeft, BitVec.toNat_setWidth_of_le (by decide), Nat.shiftLeft_eq, BitVec.toNat_ofNat]

theorem complement_eq_ofNat (a : Word) : ~~~a = BitVec.ofNat 32 (2 ^ 32 - 1 - a.toNat) := by
  rw [← BitVec.toNat_not, BitVec.ofNat_toNat, BitVec.setWidth_eq]

/-- Settles O14: results that clear C and V, for the immediates after their zero extension. -/
theorem logicEffect : Obligations.LogicEffect :=
  ⟨fun _ _ _ _ =>
    ⟨toNat_encodeR .., completesInt_of_retireInt rfl (aluPlain_gives _),
      toNat_encodeR .., completesInt_of_retireInt rfl (aluPlain_gives _),
      toNat_encodeR .., completesInt_of_retireInt rfl (aluPlain_gives _)⟩,
    fun _ _ _ imm =>
      ⟨toNat_encodeI .., completesInt_of_retireInt rfl (uimm16_eq_ofNat imm ▸ aluPlain_gives _),
        toNat_encodeI .., completesInt_of_retireInt rfl (uimm16_eq_ofNat imm ▸ aluPlain_gives _),
        toNat_encodeI .., completesInt_of_retireInt rfl (uimm16_eq_ofNat imm ▸ aluPlain_gives _)⟩⟩

/-- Settles O17: results that clear C and V, each as the number the rule writes. -/
theorem moveEffect : Obligations.MoveEffect :=
  fun s _ xs imm =>
    ⟨toNat_encodeR .., completesInt_of_retireInt rfl (aluPlain_gives _),
      toNat_encodeR .., completesInt_of_retireInt rfl (complement_eq_ofNat (s.getX xs) ▸ aluPlain_gives _),
      toNat_encodeI .., completesInt_of_retireInt rfl (upperImm_eq_ofNat imm ▸ aluPlain_gives _),
      toNat_encodeI .., completesInt_of_retireInt rfl (simm16_eq_ofInt imm ▸ aluPlain_gives _)⟩

/-! ## Shifts (spec/41_integer.md R184 to R186, R194 to R196) -/

theorem shiftAmount_eq_mod (b : Word) : shiftAmount b = b.toNat % 32 := by
  rw [shiftAmount, BitVec.extractLsb'_toNat, Nat.shiftRight_zero]

theorem shamt_setWidth (amount : BitVec 5) : shamt (amount.setWidth 16) = amount.toNat := by
  rw [shamt, BitVec.extractLsb'_toNat, Nat.shiftRight_zero, BitVec.toNat_setWidth_of_le (by decide)]
  exact Nat.mod_eq_of_lt amount.isLt

theorem shlCarry_iff (a : Word) (n : Nat) : shlCarry a n = true ↔ n ≠ 0 ∧ a.toNat / 2 ^ (32 - n) % 2 = 1 := by
  rw [shlCarry, ← getLsbD_iff_div_mod]
  split <;> simp [*]

theorem shrCarry_iff (a : Word) (n : Nat) : shrCarry a n = true ↔ n ≠ 0 ∧ a.toNat / 2 ^ (n - 1) % 2 = 1 := by
  rw [shrCarry, ← getLsbD_iff_div_mod]
  split <;> simp [*]

theorem aluShl_gives (a : Word) (n : Nat) :
    (aluShl a n).Gives (BitVec.ofNat 32 (a.toNat * 2 ^ n)) (n ≠ 0 ∧ a.toNat / 2 ^ (32 - n) % 2 = 1) False := by
  refine ⟨BitVec.eq_of_toNat_eq ?_, shlCarry_iff a n, by simp [aluShl]⟩
  rw [aluShl, BitVec.toNat_shiftLeft, Nat.shiftLeft_eq, BitVec.toNat_ofNat]

theorem aluShr_gives (a : Word) (n : Nat) :
    (aluShr a n).Gives (BitVec.ofNat 32 (a.toNat / 2 ^ n)) (n ≠ 0 ∧ a.toNat / 2 ^ (n - 1) % 2 = 1) False := by
  refine ⟨?_, shrCarry_iff a n, by simp [aluShr]⟩
  rw [aluShr, ← Nat.shiftRight_eq_div_pow, ← BitVec.toNat_ushiftRight, BitVec.ofNat_toNat, BitVec.setWidth_eq]

theorem aluSar_gives (a : Word) (n : Nat) :
    (aluSar a n).Gives (BitVec.ofInt 32 (a.toInt / 2 ^ n)) (n ≠ 0 ∧ a.toNat / 2 ^ (n - 1) % 2 = 1) False := by
  refine ⟨?_, shrCarry_iff a n, by simp [aluSar]⟩
  rw [aluSar, ← BitVec.ofInt_toInt (x := a.sshiftRight n), BitVec.toInt_sshiftRight, Int.shiftRight_eq_div_pow]
  norm_cast

/-- Settles O15: the three shifts by the register's amount. -/
theorem shiftEffect : Obligations.ShiftEffect := by
  intro s xd xs1 xs2 a n
  have hn : n = shiftAmount (s.getX xs2) := (shiftAmount_eq_mod _).symm
  rw [hn]
  exact ⟨toNat_encodeR .., toNat_encodeR .., toNat_encodeR .., completesInt_of_retireInt rfl (aluShl_gives ..),
    completesInt_of_retireInt rfl (aluShr_gives ..), completesInt_of_retireInt rfl (aluSar_gives ..)⟩

/-- Settles O16: the shifts of O15 by the immediate's amount, and the row's check of bits 15:5. -/
theorem shiftImmediateEffect : Obligations.ShiftImmediateEffect := by
  refine ⟨fun s xd xs amount => ?_, fun w hlow hhigh h => decode_eq_none (decodeWord_of_wide_shift hlow hhigh h)⟩
  intro a n imm
  have himm : imm.toNat = n := BitVec.toNat_setWidth_of_le (by decide)
  have hn : n = shamt imm := (shamt_setWidth amount).symm
  exact ⟨himm ▸ toNat_encodeI .., himm ▸ toNat_encodeI .., himm ▸ toNat_encodeI ..,
    hn ▸ completesInt_of_retireInt rfl (aluShl_gives ..), hn ▸ completesInt_of_retireInt rfl (aluShr_gives ..),
    hn ▸ completesInt_of_retireInt rfl (aluSar_gives ..)⟩

end Sys2Proof.Machine
end

section
/-! SUPPORT. Binary32 patterns as numbers: the fields, the classes and the sign of a pattern, and the patterns made from a
sign and low bits. -/

namespace Sys2Proof.Machine

/-! ## The fields and classes of a pattern (spec/42_float.md R220) -/

theorem exponentOf_eq (b : Word) : exponentOf b = b.toNat / 2 ^ 23 % 2 ^ 8 := by
  rw [exponentOf, BitVec.extractLsb'_toNat, Nat.shiftRight_eq_div_pow]

theorem fractionOf_eq (b : Word) : fractionOf b = b.toNat % 2 ^ 23 := by
  rw [fractionOf, BitVec.extractLsb'_toNat, Nat.shiftRight_zero]

theorem toNat_low31 (b : Word) : (b.extractLsb' 0 31).toNat = b.toNat % 2 ^ 31 := by
  rw [BitVec.extractLsb'_toNat, Nat.shiftRight_zero]

theorem signOf_iff (b : Word) : signOf b = true ↔ NegativePattern b := getLsbD_31_iff_toNat b

theorem isNaN_iff (b : Word) : isNaN b = true ↔ NaNPattern b := by
  rw [NaNPattern, ← exponentOf_eq, ← fractionOf_eq, isNaN, Bool.and_eq_true, beq_iff_eq, bne_iff_ne, Ne,
    ← BitVec.toNat_inj, ← BitVec.toNat_inj]
  rfl

theorem isInf_iff (b : Word) : isInf b = true ↔ InfinitePattern b := by
  rw [isInf, beq_iff_eq, ← BitVec.toNat_inj, toNat_low31, BitVec.toNat_ofNat, InfinitePattern]
  omega

theorem isZero_iff (b : Word) : isZero b = true ↔ ZeroPattern b := by
  rw [isZero, beq_iff_eq, ← BitVec.toNat_inj, toNat_low31, BitVec.toNat_zero]

theorem finitePattern_iff_low (b : Word) : FinitePattern b ↔ b.toNat % 2 ^ 31 < 0x7F800000 := by
  rw [FinitePattern]
  omega

theorem infinitePattern_iff_low (b : Word) : InfinitePattern b ↔ b.toNat % 2 ^ 31 = 0x7F800000 := by
  rw [InfinitePattern]
  omega

theorem isNaN_eq_false_iff (b : Word) : isNaN b = false ↔ ¬NaNPattern b := by
  rw [← isNaN_iff, Bool.not_eq_true]

theorem isInf_eq_false_iff (b : Word) : isInf b = false ↔ ¬InfinitePattern b := by
  rw [← isInf_iff, Bool.not_eq_true]

theorem isZero_eq_false_iff (b : Word) : isZero b = false ↔ ¬ZeroPattern b := by
  rw [← isZero_iff, Bool.not_eq_true]

theorem isNaN_of_infinite {b : Word} (h : InfinitePattern b) : isNaN b = false :=
  (isNaN_eq_false_iff b).mpr fun hnan => hnan.2 h.2

theorem isNaN_of_finite {b : Word} (h : FinitePattern b) : isNaN b = false :=
  (isNaN_eq_false_iff b).mpr fun hnan => h hnan.1

theorem isInf_of_infinite {b : Word} (h : InfinitePattern b) : isInf b = true := (isInf_iff b).mpr h

theorem isInf_of_finite {b : Word} (h : FinitePattern b) : isInf b = false :=
  (isInf_eq_false_iff b).mpr fun hinf => h hinf.1

theorem isZero_of_infinite {b : Word} (h : InfinitePattern b) : isZero b = false := by
  rw [infinitePattern_iff_low] at h
  rw [isZero_eq_false_iff]
  omega

theorem finitePattern_of_zero {b : Word} (h : ZeroPattern b) : FinitePattern b := by
  rw [finitePattern_iff_low]
  omega

/-- A product and a quotient take the exclusive or of the signs (spec/42_float.md R223). -/
theorem signs_differ_iff (a b : Word) :
    (signOf a != signOf b) = true ↔ ¬(NegativePattern a ↔ NegativePattern b) := by
  rw [bne_iff_ne, Ne, Bool.eq_iff_iff, signOf_iff, signOf_iff]

/-! ## Patterns made from a sign and low bits -/

theorem toNat_withSign (sign : Bool) {low : Nat} (h : low < 2 ^ 31) :
    (withSign sign low).toNat = (if sign then 2 ^ 31 else 0) + low := by
  rw [withSign, BitVec.toNat_ofNat]
  exact Nat.mod_eq_of_lt (by split <;> omega)

theorem low_withSign (sign : Bool) {low : Nat} (h : low < 2 ^ 31) : (withSign sign low).toNat % 2 ^ 31 = low := by
  rw [toNat_withSign sign h]
  split <;> omega

theorem negativePattern_withSign (sign : Bool) {low : Nat} (h : low < 2 ^ 31) :
    NegativePattern (withSign sign low) ↔ sign = true := by
  rw [NegativePattern, toNat_withSign sign h]
  cases sign <;> simp; omega

theorem signOf_withSign (sign : Bool) {low : Nat} (h : low < 2 ^ 31) : signOf (withSign sign low) = sign := by
  rw [Bool.eq_iff_iff, signOf_iff, negativePattern_withSign sign h]

theorem infinitePattern_infinity (sign : Bool) : InfinitePattern (infinity sign) := by
  rw [infinitePattern_iff_low, infinity, low_withSign sign (by decide)]

theorem negativePattern_infinity (sign : Bool) : NegativePattern (infinity sign) ↔ sign = true :=
  negativePattern_withSign sign (by decide)

theorem withSign_zero (sign : Bool) : withSign sign 0 = if sign then 0x80000000#32 else 0#32 := by
  cases sign <;> rfl

end Sys2Proof.Machine
end

section
/-! SUPPORT. Correct rounding. The magnitudes of the patterns form a grid in units of 2^-149; the one rounding of the model
takes a quotient to the nearest point of it, ties to even, so a signed quotient to the nearest pattern. -/

namespace Sys2Proof.Machine

/-! ## The grid of magnitudes (spec/42_float.md R220) -/

/-- The magnitude that the exponent and fraction bits `k` of a pattern stand for, in units of 2^-149. -/
def gridUnits (k : Nat) : Nat :=
  if k / 2 ^ 23 = 0 then k % 2 ^ 23 else (2 ^ 23 + k % 2 ^ 23) * 2 ^ (k / 2 ^ 23 - 1)

theorem magnitude_eq_gridUnits (b : Word) : magnitude b = gridUnits (b.toNat % 2 ^ 31) := by
  have hexp : b.toNat % 2 ^ 31 / 2 ^ 23 = b.toNat / 2 ^ 23 % 2 ^ 8 := by omega
  have hfrac : b.toNat % 2 ^ 31 % 2 ^ 23 = b.toNat % 2 ^ 23 := by omega
  rw [magnitude, gridUnits, exponentOf_eq, fractionOf_eq, hexp, hfrac]

/-- A significand of 24 bits, or the next power of two, scaled by `e`; with `e = 0` also the subnormals. -/
theorem gridUnits_scaled {e m : Nat} (hm : m ≤ 2 ^ 24) (he : e = 0 ∨ 2 ^ 23 ≤ m) :
    gridUnits (e * 2 ^ 23 + m) = m * 2 ^ e := by
  rw [gridUnits]
  obtain hsub | ⟨hnorm, hlt⟩ | rfl : m < 2 ^ 23 ∨ 2 ^ 23 ≤ m ∧ m < 2 ^ 24 ∨ m = 2 ^ 24 := by omega
  · obtain rfl : e = 0 := by omega
    rw [if_pos (by omega), pow_zero]
    omega
  · rw [if_neg (by omega), show (e * 2 ^ 23 + m) / 2 ^ 23 - 1 = e by omega,
      show 2 ^ 23 + (e * 2 ^ 23 + m) % 2 ^ 23 = m by omega]
  · rw [if_neg (by omega), show (e * 2 ^ 23 + 2 ^ 24) / 2 ^ 23 - 1 = e + 1 by omega,
      show 2 ^ 23 + (e * 2 ^ 23 + 2 ^ 24) % 2 ^ 23 = 2 ^ 23 by omega]
    ring

/-- Every point of the grid is a significand below 2^24 times a power of two. -/
theorem exists_scaled (k : Nat) : ∃ e m, k = e * 2 ^ 23 + m ∧ m < 2 ^ 24 ∧ (e = 0 ∨ 2 ^ 23 ≤ m) := by
  obtain h | h := Nat.lt_or_ge k (2 ^ 23)
  · exact ⟨0, k, by omega, by omega, .inl rfl⟩
  · exact ⟨k / 2 ^ 23 - 1, 2 ^ 23 + k % 2 ^ 23, by omega, by omega, .inr (by omega)⟩

theorem gridUnits_strictMono : StrictMono gridUnits := by
  refine strictMono_nat_of_lt_succ fun k => ?_
  obtain ⟨e, m, rfl, hm, he⟩ := exists_scaled k
  rw [gridUnits_scaled hm.le he, Nat.add_assoc, gridUnits_scaled hm (he.imp_right (by omega)), Nat.succ_mul]
  exact Nat.lt_add_of_pos_right (Nat.two_pow_pos e)

@[simp] theorem gridUnits_zero : gridUnits 0 = 0 := rfl

/-- The pattern of an infinity, read as a point of the grid. -/
theorem gridUnits_infinity : gridUnits 0x7F800000 = 2 ^ 24 * 2 ^ 253 :=
  gridUnits_scaled (e := 253) (m := 2 ^ 24) (by decide) (by decide)

/-- The largest finite magnitude. -/
theorem gridUnits_largest : gridUnits 0x7F7FFFFF = (2 ^ 24 - 1) * 2 ^ 253 :=
  gridUnits_scaled (e := 253) (m := 2 ^ 24 - 1) (by decide) (by decide)

/-! ## Nearest points of the grid (spec/42_float.md R221) -/

/-- No point of the grid is nearer to `x` than the point `k`, and where another is as near, `k` is even. -/
def NearestGrid (x : ℚ) (k : Nat) : Prop :=
  ∀ c, |(gridUnits k : ℚ) - x| < |(gridUnits c : ℚ) - x| ∨
    |(gridUnits k : ℚ) - x| = |(gridUnits c : ℚ) - x| ∧ (c = k ∨ k % 2 = 0)

/-- The point below `x` is nearest when `x` is below the midpoint, or at the midpoint and that point is even. -/
theorem nearestGrid_below {x : ℚ} {k : Nat} (hlo : gridUnits k ≤ x)
    (hmid : 2 * x < gridUnits k + gridUnits (k + 1) ∨
      2 * x = gridUnits k + gridUnits (k + 1) ∧ k % 2 = 0) : NearestGrid x k := by
  intro c
  rw [abs_of_nonpos (sub_nonpos.mpr hlo)]
  obtain hc | rfl | hc := lt_trichotomy c k
  · have hunits : (gridUnits c : ℚ) < gridUnits k := by exact_mod_cast gridUnits_strictMono hc
    left
    rw [abs_of_nonpos] <;> linarith
  · exact .inr ⟨(abs_of_nonpos (sub_nonpos.mpr hlo)).symm, .inl rfl⟩
  · have hunits : (gridUnits (k + 1) : ℚ) ≤ gridUnits c := by exact_mod_cast gridUnits_strictMono.monotone hc
    have hfar := le_abs_self ((gridUnits c : ℚ) - x)
    obtain hlt | ⟨heq, heven⟩ := hmid
    · left
      linarith
    · exact (lt_or_eq_of_le (by linarith)).imp_right fun h => ⟨h, .inr heven⟩

/-- The point above `x` is nearest when `x` is above the midpoint, or at the midpoint and that point is even. -/
theorem nearestGrid_above {x : ℚ} {k : Nat} (hhi : x ≤ gridUnits (k + 1))
    (hmid : gridUnits k + gridUnits (k + 1) < 2 * x ∨
      gridUnits k + gridUnits (k + 1) = 2 * x ∧ (k + 1) % 2 = 0) : NearestGrid x (k + 1) := by
  intro c
  rw [abs_of_nonneg (sub_nonneg.mpr hhi)]
  obtain hc | rfl | hc := lt_trichotomy c (k + 1)
  · have hunits : (gridUnits c : ℚ) ≤ gridUnits k := by
      exact_mod_cast gridUnits_strictMono.monotone (Nat.le_of_lt_succ hc)
    have hfar := neg_le_abs ((gridUnits c : ℚ) - x)
    obtain hlt | ⟨heq, heven⟩ := hmid
    · left
      linarith
    · exact (lt_or_eq_of_le (by linarith)).imp_right fun h => ⟨h, .inr heven⟩
  · exact .inr ⟨(abs_of_nonneg (sub_nonneg.mpr hhi)).symm, .inl rfl⟩
  · have hunits : (gridUnits (k + 1) : ℚ) < gridUnits c := by exact_mod_cast gridUnits_strictMono hc
    left
    rw [abs_of_nonneg] <;> linarith

/-- The nearest point is below that of the infinities just when `x` is below the midpoint between the largest finite
magnitude and the next power of two. -/
theorem NearestGrid.lt_infinity_iff {x : ℚ} {k : Nat} (h : NearestGrid x k) :
    k < 0x7F800000 ↔ x < (2 ^ 25 - 1) * 2 ^ 252 := by
  have hinf : (gridUnits 0x7F800000 : ℚ) = 2 ^ 24 * 2 ^ 253 := by exact_mod_cast gridUnits_infinity
  have hlargest : (gridUnits 0x7F7FFFFF : ℚ) = (2 ^ 24 - 1) * 2 ^ 253 := by
    rw [gridUnits_largest]
    norm_num
  constructor
  · intro hk
    by_contra! hx
    have hle : (gridUnits k : ℚ) ≤ gridUnits 0x7F7FFFFF := by
      exact_mod_cast gridUnits_strictMono.monotone (Nat.le_of_lt_succ hk)
    have hnear := neg_le_abs ((gridUnits k : ℚ) - x)
    have hfar : |(gridUnits 0x7F800000 : ℚ) - x| ≤ x - gridUnits 0x7F7FFFFF := abs_le'.mpr ⟨by linarith, by linarith⟩
    obtain hlt | ⟨heq, hsame | heven⟩ := h 0x7F800000
    · linarith
    · omega
    · have hodd : k = 0x7F7FFFFF := gridUnits_strictMono.injective (by exact_mod_cast le_antisymm hle (by linarith))
      omega
  · intro hx
    by_contra! hk
    have hle : (gridUnits 0x7F800000 : ℚ) ≤ gridUnits k := by exact_mod_cast gridUnits_strictMono.monotone hk
    have hnear := le_abs_self ((gridUnits k : ℚ) - x)
    have hfar : |(gridUnits 0x7F7FFFFF : ℚ) - x| < gridUnits 0x7F800000 - x := abs_lt.mpr ⟨by linarith, by linarith⟩
    obtain hlt | ⟨heq, -⟩ := h 0x7F7FFFFF <;> linarith

/-! ## The rounding of a quotient (spec/42_float.md R221) -/

/-- The excess bits leave a significand of at most 24 bits, and of exactly 24 when there are any. -/
theorem div_two_pow_excessBits (n : Nat) :
    n / 2 ^ excessBits n < 2 ^ 24 ∧ (excessBits n = 0 ∨ 2 ^ 23 ≤ n / 2 ^ excessBits n) := by
  have hlt : n < 2 ^ (n.log2 + 1) := Nat.lt_log2_self
  obtain h | h := Nat.lt_or_ge 23 n.log2
  · have hexp : n.log2 = 23 + excessBits n := by rw [excessBits]; omega
    have hne : n ≠ 0 := by rintro rfl; simp at h
    rw [Nat.div_lt_iff_lt_mul (Nat.two_pow_pos _), Nat.le_div_iff_mul_le (Nat.two_pow_pos _), ← pow_add, ← pow_add, ← hexp]
    exact ⟨hlt.trans_eq (by congr 1; omega), .inr (Nat.log2_self_le hne)⟩
  · have hexp : excessBits n = 0 := by rw [excessBits]; omega
    rw [hexp, pow_zero, Nat.div_one]
    exact ⟨hlt.trans_le (Nat.pow_le_pow_right (by decide) (by omega)), .inl rfl⟩

/-- The grid point that `roundMagnitude` caps at the infinities. -/
def roundGrid (p q : Nat) : Nat := excessBits (p / q) * 2 ^ 23 + roundQuotient p (q * 2 ^ excessBits (p / q))

theorem roundMagnitude_eq_min (p q : Nat) : roundMagnitude p q = min (roundGrid p q) 0x7F800000 := rfl

/-- Where the grid has step `g` around `p / q`, the remainder of `roundQuotient` says on which side of the midpoint
`p / q` lies. -/
theorem nearestGrid_add_roundQuotient {base p q g : Nat} (hq : 0 < q) (hg : 0 < g) (hbase : base % 2 = 0)
    (hlo : gridUnits (base + p / (q * g)) = p / (q * g) * g)
    (hhi : gridUnits (base + (p / (q * g) + 1)) = (p / (q * g) + 1) * g) :
    NearestGrid (p / q) (base + roundQuotient p (q * g)) := by
  have hdiv := Nat.div_add_mod p (q * g)
  have hrest := Nat.mod_lt p (Nat.mul_pos hq hg)
  rw [roundQuotient]
  generalize p / (q * g) = m, p % (q * g) = r at *
  have hq' : (0 : ℚ) < q := by exact_mod_cast hq
  have hlo' : (gridUnits (base + m) : ℚ) = m * g := by exact_mod_cast hlo
  have hhi' : (gridUnits (base + m + 1) : ℚ) = m * g + g := by
    rw [Nat.add_assoc, hhi]
    push_cast
    ring
  obtain ⟨t, ht⟩ : ∃ t : ℚ, (r : ℚ) = q * t := ⟨r / q, by field_simp⟩
  have hx : (p / q : ℚ) = m * g + t := by
    rw [← hdiv]
    push_cast
    rw [ht]
    field_simp
  have hnonneg : 0 ≤ t := nonneg_of_mul_nonneg_right (by rw [← ht]; positivity) hq'
  have hstep : t < g := lt_of_mul_lt_mul_left (by rw [← ht]; exact_mod_cast hrest) hq'.le
  have hdouble : q * (2 * t) = 2 * r := by rw [ht, mul_left_comm]
  split_ifs with hbelow habove heven
  · have hside : 2 * t < g := lt_of_mul_lt_mul_left (by rw [hdouble]; exact_mod_cast hbelow) hq'.le
    exact nearestGrid_below (by linarith) (.inl (by linarith))
  · have hside : g < 2 * t := lt_of_mul_lt_mul_left (by rw [hdouble]; exact_mod_cast habove) hq'.le
    exact nearestGrid_above (k := base + m) (by linarith) (.inl (by linarith))
  all_goals
    have htie : 2 * t = g := by
      refine mul_left_cancel₀ hq'.ne' ?_
      rw [hdouble]
      exact_mod_cast Nat.le_antisymm (Nat.not_lt.mp habove) (Nat.not_lt.mp hbelow)
  · exact nearestGrid_below (by linarith) (.inr ⟨by linarith, by omega⟩)
  · exact nearestGrid_above (k := base + m) (by linarith) (.inr ⟨by linarith, by omega⟩)

/-- The rounding of a quotient answers a nearest point: the step around it is the weight of the last kept bit. -/
theorem nearestGrid_roundGrid (p : Nat) {q : Nat} (hq : 0 < q) : NearestGrid (p / q) (roundGrid p q) := by
  obtain ⟨hsig, he⟩ := div_two_pow_excessBits (p / q)
  rw [Nat.div_div_eq_div_mul] at hsig he
  exact nearestGrid_add_roundQuotient hq (Nat.two_pow_pos _) (by omega) (gridUnits_scaled hsig.le he)
    (gridUnits_scaled hsig (he.imp_right (by omega)))

/-! ## Patterns as rationals -/

/-- The factor a sign bit stands for. -/
def signFactor (sign : Bool) : ℚ := if sign then -1 else 1

theorem signFactor_bne (s t : Bool) : signFactor (s != t) = signFactor s * signFactor t := by
  cases s <;> cases t <;> norm_num [signFactor]

theorem abs_signFactor (s : Bool) : |signFactor s| = 1 := by
  cases s <;> norm_num [signFactor]

theorem realValue_eq_magnitude (b : Word) : realValue b = signFactor (signOf b) * (magnitude b / 2 ^ 149) := by
  have hsign : (if b.toNat < 2 ^ 31 then (1 : ℚ) else -1) = signFactor (signOf b) := by
    rw [signFactor, ← ite_not]
    simp only [signOf_iff, NegativePattern, not_lt]
  rw [realValue, hsign, magnitude, exponentOf_eq, fractionOf_eq]
  congr 1
  split_ifs with hexp
  · rfl
  · obtain ⟨e, he⟩ := Nat.exists_eq_succ_of_ne_zero hexp
    rw [he, Nat.succ_sub_one, pow_succ (2 : ℚ) e]
    push_cast
    ring

theorem realValue_eq_signedValue (b : Word) : realValue b = signedValue b / 2 ^ 149 := by
  rw [realValue_eq_magnitude, signFactor, signedValue]
  split <;> push_cast <;> ring

/-- On the same side of zero the distance is that of the magnitudes. -/
theorem abs_realValue_sub_same {b : Word} {sign : Bool} (h : signOf b = sign) (x : ℚ) :
    |realValue b - signFactor sign * (x / 2 ^ 149)| = |gridUnits (b.toNat % 2 ^ 31) - x| / 2 ^ 149 := by
  rw [realValue_eq_magnitude, h, ← mul_sub, abs_mul, abs_signFactor, one_mul, ← sub_div, abs_div,
    abs_of_pos (a := (2 : ℚ) ^ 149) (by positivity), magnitude_eq_gridUnits]

/-- Across zero the distance is at least that of zero. -/
theorem le_abs_realValue_sub_opposite {b : Word} {sign : Bool} (h : signOf b ≠ sign) {x : ℚ} (hx : 0 ≤ x) :
    x / 2 ^ 149 ≤ |realValue b - signFactor sign * (x / 2 ^ 149)| := by
  have hfactor : signFactor (signOf b) = -signFactor sign := by
    rw [Bool.eq_not_of_ne h]
    cases sign <;> norm_num [signFactor]
  have hmag : (0 : ℚ) ≤ magnitude b / 2 ^ 149 := by positivity
  have hx' : 0 ≤ x / 2 ^ 149 := by positivity
  rw [realValue_eq_magnitude, hfactor, neg_mul, ← neg_add', ← mul_add, abs_neg, abs_mul, abs_signFactor, one_mul,
    abs_of_nonneg (by linarith)]
  linarith

/-- A nearest magnitude below the infinities gives the nearest pattern: of the patterns of the other sign, zero is as
near as any. -/
theorem NearestGrid.nearestEven {x : ℚ} {k : Nat} (h : NearestGrid x k) (hx : 0 ≤ x) (hk : k < 0x7F800000)
    (sign : Bool) : NearestEven (signFactor sign * (x / 2 ^ 149)) (withSign sign k) := by
  have hlow := low_withSign sign (hk.trans (by decide))
  have hsign := signOf_withSign sign (hk.trans (by decide))
  have heven : (withSign sign k).toNat % 2 = k % 2 := by omega
  refine ⟨(finitePattern_iff_low _).mpr (by omega), fun c _ => ?_⟩
  rw [abs_realValue_sub_same hsign, hlow, heven]
  obtain hc | hc := eq_or_ne (signOf c) sign
  · rw [abs_realValue_sub_same hc, div_lt_div_iff_of_pos_right (by positivity), div_left_inj' (by positivity)]
    refine (h (c.toNat % 2 ^ 31)).imp_right (And.imp_right (Or.imp_left fun hck => ?_))
    rw [realValue_eq_magnitude, realValue_eq_magnitude, hsign, hc, magnitude_eq_gridUnits, magnitude_eq_gridUnits,
      hlow, hck]
  · have hfar := le_abs_realValue_sub_opposite hc hx
    have hzero := h 0
    rw [gridUnits_zero, Nat.cast_zero, zero_sub, abs_neg, abs_of_nonneg hx] at hzero
    obtain hlt | ⟨heq, hk0⟩ := hzero
    · exact .inl ((div_lt_div_of_pos_right hlt (by positivity)).trans_le hfar)
    · rw [heq]
      exact hfar.lt_or_eq.imp_right fun hfar => ⟨hfar, .inr (by omega)⟩

theorem roundMagnitude_lt (p q : Nat) : roundMagnitude p q < 2 ^ 31 :=
  (Nat.min_le_right ..).trans_lt (by decide)

theorem negativePattern_roundPattern (sign : Bool) (p q : Nat) : NegativePattern (roundPattern sign p q) ↔ sign = true :=
  negativePattern_withSign sign (roundMagnitude_lt p q)

/-- The one rounding is correct: `p / q` units of 2^-149 with a sign round to the pattern of `roundPattern`
(spec/42_float.md R221, R223). -/
theorem roundsTo_roundPattern (sign : Bool) (p : Nat) {q : Nat} (hq : 0 < q) :
    RoundsTo (signFactor sign * (p / q / 2 ^ 149)) (roundPattern sign p q) := by
  have hnear := nearestGrid_roundGrid p hq
  have hx : (0 : ℚ) ≤ p / q := by positivity
  have hunits : (0 : ℚ) ≤ p / q / 2 ^ 149 := by positivity
  refine ⟨?_, fun hneg => ?_, fun hpos => ?_⟩
  · rw [abs_mul, abs_signFactor, one_mul, abs_of_nonneg hunits, roundPattern, roundMagnitude_eq_min]
    split_ifs with hover <;> rw [le_div_iff₀ (by positivity)] at hover
    · have hk : 0x7F800000 ≤ roundGrid p q := by
        rw [← not_lt, hnear.lt_infinity_iff]
        linarith
      rw [Nat.min_eq_right hk]
      exact infinitePattern_infinity sign
    · have hk : roundGrid p q < 0x7F800000 := by
        rw [hnear.lt_infinity_iff]
        linarith
      rw [Nat.min_eq_left hk.le]
      exact hnear.nearestEven hx hk sign
  · rw [negativePattern_roundPattern]
    cases sign
    · rw [signFactor, if_neg Bool.false_ne_true] at hneg
      linarith
    · rfl
  · rw [negativePattern_roundPattern]
    cases sign
    · exact Bool.false_ne_true
    · rw [signFactor, if_pos rfl] at hpos
      linarith

end Sys2Proof.Machine
end

section
/-! SUPPORT. What each operation gives in every class of operands, and the completion of the instructions that write an
f register. What the family of spec/42_float.md claims. -/

namespace Sys2Proof.Machine

/-! ## Completion of the Float instructions (spec/40_engine.md R154) -/

/-- An instruction that retires with an f destination completes with the pattern it retires. -/
theorem completesFloat_of_retireFloat {i : Instr} {s : State} {fd : FReg} {b : Word}
    (hexec : exec i s = .next (s.retireFloat fd b)) : CompletesFloat i s fd b := by
  refine ⟨_, hexec, ⟨?_, fun j hj => ?_, ?_, fun j hj => ?_⟩, ?_, ⟨rfl, rfl, rfl⟩, rfl, SameMemory.of_mem_eq rfl⟩
  · rw [State.getF_retireFloat, if_pos rfl]
  · rw [State.getF_retireFloat, if_neg hj.symm]
  · rw [State.getX_retireFloat, if_pos rfl, State.pc]
  · rw [List.mem_singleton] at hj
    rw [State.getX_retireFloat, if_neg (Ne.symm hj)]
  · rw [FloatFlags, State.flagSet_retireFloat]
    exact ⟨isNaN_iff b, isInf_iff b, rfl, rfl, rfl, rfl, rfl, rfl, rfl, rfl, rfl, floatFlags_reserved ..⟩

/-- Settles O22: the three copies retire the bits they read. -/
theorem floatMoveEffect : Obligations.FloatMoveEffect :=
  fun _ _ _ _ _ =>
    ⟨toNat_encodeR .., completesFloat_of_retireFloat rfl, toNat_encodeR .., completesFloat_of_retireFloat rfl,
      toNat_encodeR .., completesInt_of_retireInt rfl (aluPlain_gives _)⟩

/-! ## Sum and difference (spec/42_float.md R222, R223, R226, R227) -/

theorem roundPattern_zero (sign : Bool) : roundPattern sign 0 1 = withSign sign 0 := rfl

theorem floatAdd_of_nan {a b : Word} (h : NaNPattern a ∨ NaNPattern b) : floatAdd a b = 0x7FC00000#32 := by
  rw [← isNaN_iff, ← isNaN_iff, ← Bool.or_eq_true] at h
  rw [floatAdd, if_pos h, Config.canonicalNaN]

theorem floatAdd_of_infinite_finite {a b : Word} (ha : InfinitePattern a) (hb : FinitePattern b) :
    floatAdd a b = a := by
  simp [floatAdd, isNaN_of_infinite ha, isNaN_of_finite hb, isInf_of_infinite ha, isInf_of_finite hb]

theorem floatAdd_of_finite_infinite {a b : Word} (ha : FinitePattern a) (hb : InfinitePattern b) :
    floatAdd a b = b := by
  simp [floatAdd, isNaN_of_finite ha, isNaN_of_infinite hb, isInf_of_finite ha, isInf_of_infinite hb]

/-- Two infinities are equal just when their signs are. -/
theorem signOf_ne_iff_of_infinite {a b : Word} (ha : InfinitePattern a) (hb : InfinitePattern b) :
    (signOf a != signOf b) = true ↔ a ≠ b := by
  rw [infinitePattern_iff_low] at ha hb
  rw [signs_differ_iff, Ne, ← BitVec.toNat_inj]
  omega

theorem floatAdd_of_infinite {a b : Word} (ha : InfinitePattern a) (hb : InfinitePattern b) :
    floatAdd a b = if a = b then a else 0x7FC00000#32 := by
  have hsigns := signOf_ne_iff_of_infinite ha hb
  rw [← ite_not]
  simp [floatAdd, isNaN_of_infinite ha, isNaN_of_infinite hb, isInf_of_infinite ha, isInf_of_infinite hb,
    Config.canonicalNaN, hsigns]

theorem floatAdd_of_finite {a b : Word} (ha : FinitePattern a) (hb : FinitePattern b) :
    floatAdd a b = roundSum (signOf a) (signOf b) (signedValue a + signedValue b) := by
  simp [floatAdd, isNaN_of_finite ha, isNaN_of_finite hb, isInf_of_finite ha, isInf_of_finite hb]

theorem signFactor_mul_natAbs (n : Int) : signFactor (decide (n < 0)) * (n.natAbs : ℚ) = n := by
  rw [Nat.cast_natAbs, signFactor]
  obtain h | h := lt_or_ge n 0
  · rw [if_pos (decide_eq_true h), abs_of_neg h]
    push_cast
    ring
  · rw [if_neg (by simpa using h), abs_of_nonneg h, one_mul]

theorem roundsTo_roundSum (sa sb : Bool) (n : Int) : RoundsTo (n / 2 ^ 149) (roundSum sa sb n) := by
  rw [roundSum]
  split_ifs with hn
  · have h := roundsTo_roundPattern (sa && sb) 0 Nat.one_pos
    rw [Nat.cast_zero, zero_div, zero_div, mul_zero, roundPattern_zero] at h
    rwa [hn, Int.cast_zero, zero_div]
  · have h := roundsTo_roundPattern (decide (n < 0)) n.natAbs Nat.one_pos
    rwa [Nat.cast_one, div_one, ← mul_div_assoc, signFactor_mul_natAbs] at h

theorem realValue_add (a b : Word) : realValue a + realValue b = (signedValue a + signedValue b : Int) / 2 ^ 149 := by
  rw [realValue_eq_signedValue, realValue_eq_signedValue, Int.cast_add, add_div]

/-- The exact sum of two finite patterns is rounded. -/
theorem roundsTo_floatAdd {a b : Word} (ha : FinitePattern a) (hb : FinitePattern b) :
    RoundsTo (realValue a + realValue b) (floatAdd a b) := by
  rw [floatAdd_of_finite ha hb, realValue_add]
  exact roundsTo_roundSum ..

/-- A zero sum is -0 only when both operands are negative. -/
theorem floatAdd_of_sum_zero {a b : Word} (ha : FinitePattern a) (hb : FinitePattern b)
    (h : realValue a + realValue b = 0) :
    floatAdd a b = if NegativePattern a ∧ NegativePattern b then 0x80000000#32 else 0#32 := by
  rw [realValue_add, div_eq_zero_iff, or_iff_left (by positivity), Int.cast_eq_zero] at h
  rw [floatAdd_of_finite ha hb, roundSum, if_pos h, withSign_zero]
  simp only [Bool.and_eq_true, signOf_iff]

/-- Settles O18, from the sum of each class of operands. -/
theorem faddEffect : Obligations.FaddEffect := by
  intro s fd fs1 fs2 a b
  exact ⟨toNat_encodeR .., floatAdd a b, completesFloat_of_retireFloat rfl, floatAdd_of_nan, floatAdd_of_infinite,
    floatAdd_of_infinite_finite, floatAdd_of_finite_infinite, fun ha hb => ⟨roundsTo_floatAdd ha hb, fun hzero =>
      ⟨fun hneg => (floatAdd_of_sum_zero ha hb hzero).trans (if_pos hneg),
        fun hneg => (floatAdd_of_sum_zero ha hb hzero).trans (if_neg hneg)⟩⟩⟩

theorem signOf_floatNeg (b : Word) : signOf (floatNeg b) = !signOf b := by
  simp [signOf, floatNeg]

theorem low_floatNeg (b : Word) : (floatNeg b).toNat % 2 ^ 31 = b.toNat % 2 ^ 31 := by
  have h : (0x80000000#32).extractLsb' 0 31 = 0#31 := rfl
  rw [← toNat_low31, ← toNat_low31, floatNeg, BitVec.extractLsb'_xor, h, BitVec.xor_zero]

theorem nanPattern_floatNeg (b : Word) : NaNPattern (floatNeg b) ↔ NaNPattern b := by
  have h := low_floatNeg b
  rw [NaNPattern, NaNPattern]
  omega

theorem infinitePattern_floatNeg (b : Word) : InfinitePattern (floatNeg b) ↔ InfinitePattern b := by
  rw [infinitePattern_iff_low, infinitePattern_iff_low, low_floatNeg]

theorem finitePattern_floatNeg (b : Word) : FinitePattern (floatNeg b) ↔ FinitePattern b := by
  rw [finitePattern_iff_low, finitePattern_iff_low, low_floatNeg]

theorem negativePattern_floatNeg (b : Word) : NegativePattern (floatNeg b) ↔ ¬NegativePattern b := by
  rw [← signOf_iff, ← signOf_iff, signOf_floatNeg, Bool.not_eq_true', Bool.not_eq_true]

theorem realValue_floatNeg (b : Word) : realValue (floatNeg b) = -realValue b := by
  rw [realValue_eq_magnitude, realValue_eq_magnitude, signOf_floatNeg, magnitude_eq_gridUnits, low_floatNeg,
    ← magnitude_eq_gridUnits]
  cases signOf b <;> simp [signFactor]

/-- There are two infinities, each the other with its sign flipped. -/
theorem eq_floatNeg_iff_of_infinite {a b : Word} (ha : InfinitePattern a) (hb : InfinitePattern b) :
    a = floatNeg b ↔ ¬a = b := by
  have hlow := low_floatNeg b
  have hsign := negativePattern_floatNeg b
  rw [infinitePattern_iff_low] at ha hb
  rw [← BitVec.toNat_inj, ← BitVec.toNat_inj]
  omega

/-- A zero difference is -0 only for -0 minus +0. -/
theorem floatSub_of_difference_zero {a b : Word} (ha : FinitePattern a) (hb : FinitePattern b)
    (h : realValue a - realValue b = 0) :
    floatSub a b = if NegativePattern a ∧ ¬NegativePattern b then 0x80000000#32 else 0#32 := by
  rw [sub_eq_add_neg, ← realValue_floatNeg] at h
  rw [floatSub, floatAdd_of_sum_zero ha ((finitePattern_floatNeg b).mpr hb) h]
  simp only [negativePattern_floatNeg]

/-- Settles O19, from the sum with the second operand's sign flipped. -/
theorem fsubEffect : Obligations.FsubEffect := by
  intro s fd fs1 fs2 a b
  refine ⟨toNat_encodeR .., floatSub a b, completesFloat_of_retireFloat rfl, fun h => ?_, fun ha hb => ?_, fun ha hb => ?_,
    fun ha hb => ?_, fun ha hb => ⟨?_, fun hzero =>
      ⟨fun hneg => (floatSub_of_difference_zero ha hb hzero).trans (if_pos hneg),
        fun hneg => (floatSub_of_difference_zero ha hb hzero).trans (if_neg hneg)⟩⟩⟩
  · exact floatAdd_of_nan (h.imp_right (nanPattern_floatNeg b).mpr)
  · rw [floatSub, floatAdd_of_infinite ha ((infinitePattern_floatNeg b).mpr hb), ← ite_not]
    simp only [eq_floatNeg_iff_of_infinite ha hb, not_not]
  · exact floatAdd_of_infinite_finite ha ((finitePattern_floatNeg b).mpr hb)
  · exact floatAdd_of_finite_infinite ha ((infinitePattern_floatNeg b).mpr hb)
  · rw [sub_eq_add_neg, ← realValue_floatNeg]
    exact roundsTo_floatAdd ha ((finitePattern_floatNeg b).mpr hb)

/-! ## Product (spec/42_float.md R228) -/

theorem floatMul_of_nan {a b : Word} (h : NaNPattern a ∨ NaNPattern b) : floatMul a b = 0x7FC00000#32 := by
  rw [← isNaN_iff, ← isNaN_iff, ← Bool.or_eq_true] at h
  simp only [floatMul, if_pos h, Config.canonicalNaN]

theorem floatMul_of_infinite_zero {a b : Word}
    (h : InfinitePattern a ∧ ZeroPattern b ∨ ZeroPattern a ∧ InfinitePattern b) : floatMul a b = 0x7FC00000#32 := by
  obtain ⟨ha, hb⟩ | ⟨ha, hb⟩ := h
  · simp [floatMul, isNaN_of_infinite ha, isNaN_of_finite (finitePattern_of_zero hb), isInf_of_infinite ha,
      (isZero_iff b).mpr hb, Config.canonicalNaN]
  · simp [floatMul, isNaN_of_infinite hb, isNaN_of_finite (finitePattern_of_zero ha), isInf_of_infinite hb,
      (isZero_iff a).mpr ha, Config.canonicalNaN]

theorem floatMul_of_infinite {a b : Word}
    (h : InfinitePattern a ∧ ¬NaNPattern b ∧ ¬ZeroPattern b ∨ InfinitePattern b ∧ ¬NaNPattern a ∧ ¬ZeroPattern a) :
    floatMul a b = infinity (signOf a != signOf b) := by
  obtain ⟨ha, hnan, hzero⟩ | ⟨hb, hnan, hzero⟩ := h
  · rw [← isNaN_eq_false_iff] at hnan
    rw [← isZero_eq_false_iff] at hzero
    simp [floatMul, isNaN_of_infinite ha, isInf_of_infinite ha, isZero_of_infinite ha, hnan, hzero]
  · rw [← isNaN_eq_false_iff] at hnan
    rw [← isZero_eq_false_iff] at hzero
    simp [floatMul, isNaN_of_infinite hb, isInf_of_infinite hb, isZero_of_infinite hb, hnan, hzero]

theorem floatMul_of_finite {a b : Word} (ha : FinitePattern a) (hb : FinitePattern b) :
    floatMul a b = roundPattern (signOf a != signOf b) (magnitude a * magnitude b) (2 ^ 149) := by
  simp [floatMul, isNaN_of_finite ha, isNaN_of_finite hb, isInf_of_finite ha, isInf_of_finite hb]

theorem realValue_mul (a b : Word) : realValue a * realValue b =
    signFactor (signOf a != signOf b) * ((magnitude a * magnitude b : Nat) / (2 ^ 149 : Nat) / 2 ^ 149) := by
  rw [realValue_eq_magnitude, realValue_eq_magnitude, signFactor_bne]
  push_cast
  ring

/-- Settles O20, from the product of each class of operands. -/
theorem fmulEffect : Obligations.FmulEffect := by
  intro s fd fs1 fs2 a b
  refine ⟨toNat_encodeR .., floatMul a b, completesFloat_of_retireFloat rfl, floatMul_of_nan, floatMul_of_infinite_zero,
    fun h => ?_, fun ha hb => ?_⟩
  · rw [floatMul_of_infinite h, negativePattern_infinity, signs_differ_iff]
    exact ⟨infinitePattern_infinity _, Iff.rfl⟩
  · rw [floatMul_of_finite ha hb, negativePattern_roundPattern, signs_differ_iff, realValue_mul]
    exact ⟨roundsTo_roundPattern _ _ (by positivity), Iff.rfl⟩

/-! ## Quotient (spec/42_float.md R229) -/

theorem floatDiv_of_nan {a b : Word} (h : NaNPattern a ∨ NaNPattern b) : floatDiv a b = 0x7FC00000#32 := by
  rw [← isNaN_iff, ← isNaN_iff, ← Bool.or_eq_true] at h
  simp only [floatDiv, if_pos h, Config.canonicalNaN]

theorem floatDiv_invalid {a b : Word}
    (h : InfinitePattern a ∧ InfinitePattern b ∨ ZeroPattern a ∧ ZeroPattern b) : floatDiv a b = 0x7FC00000#32 := by
  obtain ⟨ha, hb⟩ | ⟨ha, hb⟩ := h
  · simp [floatDiv, isNaN_of_infinite ha, isNaN_of_infinite hb, isInf_of_infinite ha, isInf_of_infinite hb,
      Config.canonicalNaN]
  · have ha' := finitePattern_of_zero ha
    have hb' := finitePattern_of_zero hb
    simp [floatDiv, isNaN_of_finite ha', isNaN_of_finite hb', isInf_of_finite ha', isInf_of_finite hb',
      (isZero_iff a).mpr ha, (isZero_iff b).mpr hb, Config.canonicalNaN]

theorem floatDiv_infinite {a b : Word}
    (h : InfinitePattern a ∧ FinitePattern b ∨ FinitePattern a ∧ ¬ZeroPattern a ∧ ZeroPattern b) :
    floatDiv a b = infinity (signOf a != signOf b) := by
  obtain ⟨ha, hb⟩ | ⟨ha, hzero, hb⟩ := h
  · simp [floatDiv, isNaN_of_infinite ha, isNaN_of_finite hb, isInf_of_infinite ha, isInf_of_finite hb]
  · have hb' := finitePattern_of_zero hb
    rw [← isZero_eq_false_iff] at hzero
    simp [floatDiv, isNaN_of_finite ha, isNaN_of_finite hb', isInf_of_finite ha, isInf_of_finite hb', hzero,
      (isZero_iff b).mpr hb]

theorem floatDiv_by_infinite {a b : Word} (ha : FinitePattern a) (hb : InfinitePattern b) :
    floatDiv a b = withSign (signOf a != signOf b) 0 := by
  simp [floatDiv, isNaN_of_finite ha, isNaN_of_infinite hb, isInf_of_finite ha, isInf_of_infinite hb]

theorem floatDiv_of_finite {a b : Word} (ha : FinitePattern a) (hb : FinitePattern b) (hzero : ¬ZeroPattern b) :
    floatDiv a b = roundPattern (signOf a != signOf b) (magnitude a * 2 ^ 149) (magnitude b) := by
  rw [← isZero_eq_false_iff] at hzero
  simp [floatDiv, isNaN_of_finite ha, isNaN_of_finite hb, isInf_of_finite ha, isInf_of_finite hb, hzero]

theorem magnitude_pos {b : Word} (h : ¬ZeroPattern b) : 0 < magnitude b := by
  rw [magnitude_eq_gridUnits, ← gridUnits_zero]
  exact gridUnits_strictMono (Nat.pos_of_ne_zero h)

theorem signFactor_div (s t : Bool) : signFactor s / signFactor t = signFactor (s != t) := by
  cases s <;> cases t <;> norm_num [signFactor]

theorem realValue_div (a b : Word) : realValue a / realValue b =
    signFactor (signOf a != signOf b) * ((magnitude a * 2 ^ 149 : Nat) / magnitude b / 2 ^ 149) := by
  rw [realValue_eq_magnitude, realValue_eq_magnitude, mul_div_mul_comm, signFactor_div,
    div_div_div_cancel_right₀ (by positivity), Nat.cast_mul, Nat.cast_pow, Nat.cast_ofNat, mul_div_right_comm,
    mul_div_cancel_right₀ _ (by positivity)]

/-- Settles O21, from the quotient of each class of operands. -/
theorem fdivEffect : Obligations.FdivEffect := by
  intro s fd fs1 fs2 a b
  refine ⟨toNat_encodeR .., floatDiv a b, completesFloat_of_retireFloat rfl, floatDiv_of_nan, floatDiv_invalid,
    fun h => ?_, fun ⟨ha, hb⟩ => ?_, fun ha hb hzero => ?_⟩
  · rw [floatDiv_infinite h, negativePattern_infinity, signs_differ_iff]
    exact ⟨infinitePattern_infinity _, Iff.rfl⟩
  · rw [floatDiv_by_infinite ha hb, negativePattern_withSign _ (by decide), signs_differ_iff]
    exact ⟨low_withSign _ (by decide), Iff.rfl⟩
  · rw [floatDiv_of_finite ha hb hzero, negativePattern_roundPattern, signs_differ_iff, realValue_div]
    exact ⟨roundsTo_roundPattern _ _ (magnitude_pos hzero), Iff.rfl⟩

/-! ## Conversions (spec/42_float.md R231, R232) -/

theorem toInt_eq_signFactor (v : Word) : (v.toInt : ℚ) = signFactor (v.getLsbD 31) * v.toInt.natAbs := by
  have hsign : v.getLsbD 31 = decide (v.toInt < 0) := by rw [getLsbD_31_eq_msb, BitVec.msb_eq_toInt]
  rw [hsign, signFactor_mul_natAbs]

theorem roundsTo_intToFloat (v : Word) : RoundsTo v.toInt (intToFloat v) := by
  have h := roundsTo_roundPattern (v.getLsbD 31) (v.toInt.natAbs * 2 ^ 149) Nat.one_pos
  rwa [Nat.cast_one, div_one, Nat.cast_mul, Nat.cast_pow, Nat.cast_ofNat, mul_div_cancel_right₀ _ (by positivity),
    ← toInt_eq_signFactor] at h

/-- A number below the overflow threshold rounds to a finite pattern. -/
theorem RoundsTo.finitePattern {x : ℚ} {b : Word} (h : RoundsTo x b) (hx : |x| < 2 ^ 128 - 2 ^ 103) : FinitePattern b := by
  obtain ⟨hnear, -, -⟩ := h
  rw [if_neg (not_le.mpr hx)] at hnear
  exact hnear.1

theorem abs_toInt_lt (v : Word) : |(v.toInt : ℚ)| < 2 ^ 128 - 2 ^ 103 := by
  have hlo := v.le_toInt
  have hhi := v.toInt_lt
  have h : |v.toInt| ≤ 2 ^ 31 := abs_le.mpr ⟨by omega, by omega⟩
  calc |(v.toInt : ℚ)| ≤ 2 ^ 31 := by exact_mod_cast h
    _ < 2 ^ 128 - 2 ^ 103 := by norm_num

/-- Settles O23: the magnitude of the integer in units of 2^-149, rounded once. -/
theorem itofEffect : Obligations.ItofEffect := by
  intro s fd xs
  have hround := roundsTo_intToFloat (s.getX xs)
  refine ⟨toNat_encodeR .., intToFloat (s.getX xs), completesFloat_of_retireFloat rfl,
    hround.finitePattern (abs_toInt_lt _), hround, fun hzero => ?_⟩
  rw [hzero]
  rfl

theorem intCast_le_realValue_iff (b : Word) (n : Int) : (n : ℚ) ≤ realValue b ↔ n * 2 ^ 149 ≤ signedValue b := by
  rw [realValue_eq_signedValue, le_div_iff₀ (by positivity)]
  norm_cast

theorem realValue_lt_intCast_iff (b : Word) (n : Int) : realValue b < n ↔ signedValue b < n * 2 ^ 149 := by
  rw [← not_le, intCast_le_realValue_iff, not_le]

/-- An infinity reads as 2^277 units. -/
theorem magnitude_of_infinite {b : Word} (h : InfinitePattern b) : magnitude b = 2 ^ 24 * 2 ^ 253 := by
  rw [magnitude_eq_gridUnits, (infinitePattern_iff_low b).mp h, gridUnits_infinity]

theorem magnitude_of_finite {b : Word} (h : FinitePattern b) : magnitude b < 2 ^ 24 * 2 ^ 253 := by
  rw [magnitude_eq_gridUnits, ← gridUnits_infinity]
  exact gridUnits_strictMono ((finitePattern_iff_low b).mp h)

theorem signedValue_of_negative {b : Word} (h : NegativePattern b) : signedValue b = -magnitude b :=
  if_pos ((signOf_iff b).mpr h)

theorem signedValue_of_not_negative {b : Word} (h : ¬NegativePattern b) : signedValue b = magnitude b :=
  if_neg (mt (signOf_iff b).mp h)

theorem floatToInt_of_nan {b : Word} (h : NaNPattern b) : floatToInt b = ⟨0#32, false, true⟩ :=
  if_pos ((isNaN_iff b).mpr h)

theorem floatToInt_of_high {b : Word}
    (h : InfinitePattern b ∧ ¬NegativePattern b ∨ FinitePattern b ∧ 2 ^ 31 ≤ realValue b) :
    floatToInt b = ⟨0x7FFFFFFF#32, false, true⟩ := by
  have hnan : isNaN b = false := h.elim (fun h => isNaN_of_infinite h.1) (fun h => isNaN_of_finite h.1)
  have hhigh : (2 : Int) ^ 31 * 2 ^ 149 ≤ signedValue b := by
    obtain ⟨hinf, hsign⟩ | ⟨-, hle⟩ := h
    · rw [signedValue_of_not_negative hsign, magnitude_of_infinite hinf]
      decide
    · rw [← intCast_le_realValue_iff]
      exact_mod_cast hle
  rw [floatToInt, hnan, if_neg Bool.false_ne_true, if_pos hhigh]

theorem floatToInt_of_low {b : Word}
    (h : InfinitePattern b ∧ NegativePattern b ∨ FinitePattern b ∧ realValue b < -2 ^ 31) :
    floatToInt b = ⟨0x80000000#32, false, true⟩ := by
  have hnan : isNaN b = false := h.elim (fun h => isNaN_of_infinite h.1) (fun h => isNaN_of_finite h.1)
  have hlow : signedValue b < -(2 : Int) ^ 31 * 2 ^ 149 := by
    obtain ⟨hinf, hsign⟩ | ⟨-, hlt⟩ := h
    · rw [signedValue_of_negative hsign, magnitude_of_infinite hinf]
      decide
    · rw [← realValue_lt_intCast_iff]
      exact_mod_cast hlt
  rw [floatToInt, hnan, if_neg Bool.false_ne_true, if_neg (by omega), if_pos hlow]

/-- Truncation of a quotient: the floor from zero on, the ceiling below. -/
theorem tdiv_eq_floor_or_ceil (n : Int) {d : Nat} (hd : 0 < d) :
    n.tdiv d = if 0 ≤ (n / d : ℚ) then ⌊(n / d : ℚ)⌋ else ⌈(n / d : ℚ)⌉ := by
  have hd' : (0 : ℚ) < d := by exact_mod_cast hd
  split_ifs with hn <;> rw [le_div_iff₀ hd', zero_mul, Int.cast_nonneg_iff] at hn
  · rw [Rat.floor_intCast_div_natCast, Int.tdiv_eq_ediv_of_nonneg hn]
  · rw [Rat.ceil_intCast_div_natCast, ← Int.tdiv_eq_ediv_of_nonneg (by omega), Int.neg_tdiv, neg_neg]

theorem floatToInt_of_inRange {b : Word} (h : FinitePattern b) (hlo : -2 ^ 31 ≤ realValue b) (hhi : realValue b < 2 ^ 31) :
    floatToInt b = ⟨BitVec.ofInt 32 (if 0 ≤ realValue b then ⌊realValue b⌋ else ⌈realValue b⌉), false, false⟩ := by
  have hhi' : signedValue b < 2 ^ 31 * 2 ^ 149 := by
    rw [← realValue_lt_intCast_iff]
    exact_mod_cast hhi
  have hlo' : -2 ^ 31 * 2 ^ 149 ≤ signedValue b := by
    rw [← intCast_le_realValue_iff]
    exact_mod_cast hlo
  have htrunc := tdiv_eq_floor_or_ceil (signedValue b) (d := 2 ^ 149) (by positivity)
  rw [Nat.cast_pow, Nat.cast_pow, Nat.cast_ofNat, Nat.cast_ofNat, ← realValue_eq_signedValue] at htrunc
  rw [floatToInt, isNaN_of_finite h, if_neg Bool.false_ne_true, if_neg (not_le.mpr hhi'), if_neg (not_lt.mpr hlo'), htrunc]

theorem floatToInt_gives {b r : Word} {v : Bool} {overflows : Prop} (h : floatToInt b = ⟨r, false, v⟩)
    (hv : v = true ↔ overflows) : (floatToInt b).Gives r False overflows := by
  rw [h]
  exact ⟨rfl, by simp, hv⟩

/-- Settles O24, from the conversion of each class of operand. -/
theorem ftoiEffect : Obligations.FtoiEffect := by
  intro s xd fs b x
  exact ⟨toNat_encodeR ..,
    fun h => completesInt_of_retireInt rfl (floatToInt_gives (floatToInt_of_nan h) (by simp)),
    fun h => completesInt_of_retireInt rfl (floatToInt_gives (floatToInt_of_high h) (by simp)),
    fun h => completesInt_of_retireInt rfl (floatToInt_gives (floatToInt_of_low h) (by simp)),
    fun h hlo hhi => completesInt_of_retireInt rfl (floatToInt_gives (floatToInt_of_inRange h hlo hhi) (by simp))⟩

/-! ## Comparisons (spec/42_float.md R225, R235 to R237) -/

/-- The three classes of a pattern that is not a NaN, by the number it is ordered by and its signed value. -/
theorem orderValue_cases {b : Word} (h : ¬NaNPattern b) :
    orderValue b = ⊥ ∧ signedValue b = -(2 ^ 24 * 2 ^ 253) ∨
    orderValue b = ((⊤ : WithTop ℚ) : WithBot (WithTop ℚ)) ∧ signedValue b = 2 ^ 24 * 2 ^ 253 ∨
    orderValue b = (((signedValue b / 2 ^ 149 : ℚ) : WithTop ℚ) : WithBot (WithTop ℚ)) ∧
      -(2 ^ 24 * 2 ^ 253) < signedValue b ∧ signedValue b < 2 ^ 24 * 2 ^ 253 := by
  rw [orderValue]
  obtain hfin | hinf : FinitePattern b ∨ InfinitePattern b := by
    rw [NaNPattern] at h
    rw [FinitePattern, InfinitePattern]
    omega
  · have hmag := magnitude_of_finite hfin
    refine .inr (.inr ⟨by rw [if_neg hfin, realValue_eq_signedValue], ?_⟩)
    rw [signedValue]
    split <;> omega
  · have hmag := magnitude_of_infinite hinf
    rw [if_pos hinf.1]
    obtain hpos | hneg := Nat.lt_or_ge b.toNat (2 ^ 31)
    · rw [if_pos hpos, signedValue_of_not_negative (not_le.mpr hpos), hmag]
      exact .inr (.inl ⟨rfl, rfl⟩)
    · rw [if_neg (not_lt.mpr hneg), signedValue_of_negative hneg, hmag]
      exact .inl ⟨rfl, rfl⟩

theorem orderValue_le_iff {a b : Word} (ha : ¬NaNPattern a) (hb : ¬NaNPattern b) :
    orderValue a ≤ orderValue b ↔ signedValue a ≤ signedValue b := by
  obtain ⟨hoa, hva⟩ | ⟨hoa, hva⟩ | ⟨hoa, hloa, hhia⟩ := orderValue_cases ha
  · rw [hoa]
    obtain ⟨-, hvb⟩ | ⟨-, hvb⟩ | ⟨-, hlob, -⟩ := orderValue_cases hb <;> exact iff_of_true bot_le (by omega)
  all_goals obtain ⟨hob, hvb⟩ | ⟨hob, hvb⟩ | ⟨hob, hlob, hhib⟩ := orderValue_cases hb
  all_goals rw [hoa, hob]
  · exact iff_of_false (WithBot.bot_lt_coe _).not_ge (by omega)
  · exact iff_of_true le_rfl (by omega)
  · exact iff_of_false (WithBot.coe_lt_coe.mpr (WithTop.coe_lt_top _)).not_ge (by omega)
  · exact iff_of_false (WithBot.bot_lt_coe _).not_ge (by omega)
  · exact iff_of_true (WithBot.coe_le_coe.mpr le_top) (by omega)
  · rw [WithBot.coe_le_coe, WithTop.coe_le_coe, div_le_div_iff_of_pos_right (by positivity), Int.cast_le]

theorem orderValue_lt_iff {a b : Word} (ha : ¬NaNPattern a) (hb : ¬NaNPattern b) :
    orderValue a < orderValue b ↔ signedValue a < signedValue b := by
  rw [← not_le, orderValue_le_iff hb ha, not_le]

theorem orderValue_eq_iff {a b : Word} (ha : ¬NaNPattern a) (hb : ¬NaNPattern b) :
    orderValue a = orderValue b ↔ signedValue a = signedValue b := by
  rw [le_antisymm_iff, orderValue_le_iff ha hb, orderValue_le_iff hb ha, le_antisymm_iff]

theorem ordered_iff (a b : Word) : ordered a b = true ↔ ¬NaNPattern a ∧ ¬NaNPattern b := by
  rw [ordered, Bool.and_eq_true, Bool.not_eq_true', Bool.not_eq_true', isNaN_eq_false_iff, isNaN_eq_false_iff]

theorem floatEq_iff (a b : Word) :
    floatEq a b = true ↔ (¬NaNPattern a ∧ ¬NaNPattern b) ∧ orderValue a = orderValue b := by
  rw [floatEq, Bool.and_eq_true, ordered_iff, decide_eq_true_iff]
  exact and_congr_right fun ⟨ha, hb⟩ => (orderValue_eq_iff ha hb).symm

theorem floatLt_iff (a b : Word) :
    floatLt a b = true ↔ (¬NaNPattern a ∧ ¬NaNPattern b) ∧ orderValue a < orderValue b := by
  rw [floatLt, Bool.and_eq_true, ordered_iff, decide_eq_true_iff]
  exact and_congr_right fun ⟨ha, hb⟩ => (orderValue_lt_iff ha hb).symm

theorem floatLe_iff (a b : Word) :
    floatLe a b = true ↔ (¬NaNPattern a ∧ ¬NaNPattern b) ∧ orderValue a ≤ orderValue b := by
  rw [floatLe, Bool.and_eq_true, ordered_iff, decide_eq_true_iff]
  exact and_congr_right fun ⟨ha, hb⟩ => (orderValue_le_iff ha hb).symm

/-- An instruction that retires a truth value completes with 1 where the condition holds and with 0 where it does not. -/
theorem completesInt_of_truthWord {i : Instr} {s : State} {xd : XReg} {b : Bool} {holds : Prop}
    (hexec : exec i s = .next (s.retireInt xd (aluPlain (truthWord b)))) (hb : b = true ↔ holds) :
    (holds → CompletesInt i s xd 1#32 False False) ∧ (¬holds → CompletesInt i s xd 0#32 False False) := by
  have hcompletes := completesInt_of_retireInt hexec (aluPlain_gives _)
  refine ⟨fun h => ?_, fun h => ?_⟩
  · rwa [hb.mpr h, truthWord, if_pos rfl] at hcompletes
  · rwa [truthWord, if_neg (mt hb.mp h)] at hcompletes

/-- Settles O25: the exact signed values are ordered as the numbers they stand for. -/
theorem floatCompareEffect : Obligations.FloatCompareEffect :=
  fun _ _ _ _ =>
    ⟨toNat_encodeR .., toNat_encodeR .., toNat_encodeR .., completesInt_of_truthWord rfl (floatEq_iff ..),
      completesInt_of_truthWord rfl (floatLt_iff ..), completesInt_of_truthWord rfl (floatLe_iff ..)⟩

end Sys2Proof.Machine
end

section
/-! SUPPORT. The words and the completion of jumps and branches, and the two ways an instruction goes on from an access
of memory. What the family of spec/43_control.md claims. -/

namespace Sys2Proof

/-! ## The words of formats B and J (spec/30_encoding.md R101) -/

theorem toNat_encodeB (cond : BitVec 5) (imm : BitVec 19) :
    (encodeB cond imm).toNat = 0x40 * 2 ^ 24 + cond.toNat * 2 ^ 19 + imm.toNat := by
  simp only [encodeB, toNat_append_eq, BitVec.toNat_ofNat]
  omega

theorem toNat_encodeJ (op : BitVec 8) (imm : BitVec 24) : (encodeJ op imm).toNat = op.toNat * 2 ^ 24 + imm.toNat :=
  toNat_append_eq op imm

end Sys2Proof

namespace Sys2Proof.Machine

/-! ## Targets (spec/43_control.md R261, R281, R282) -/

/-- The pc plus a sign-extended offset shifted left by two is the pc plus four times the signed offset. -/
theorem add_signExtend_shiftLeft {n : Nat} (pc : Word) (imm : BitVec n) :
    pc + imm.signExtend 32 <<< 2 = BitVec.ofInt 32 (pc.toNat + 4 * imm.toInt) := by
  have hshift : imm.signExtend 32 <<< 2 = BitVec.ofInt 32 (4 * imm.toInt) := by
    rw [BitVec.shiftLeft_eq_mul_twoPow, BitVec.mul_comm, BitVec.ofInt_mul]
    rfl
  rw [hshift, BitVec.ofInt_add, BitVec.ofInt_natCast, BitVec.ofNat_toNat, BitVec.setWidth_eq]

theorem branchTarget_eq_ofInt (pc : Word) (imm : BitVec 19) :
    branchTarget pc imm = BitVec.ofInt 32 (pc.toNat + 4 * imm.toInt) := add_signExtend_shiftLeft pc imm

theorem jumpTarget_eq_ofInt (pc : Word) (imm : BitVec 24) :
    jumpTarget pc imm = BitVec.ofInt 32 (pc.toNat + 4 * imm.toInt) := add_signExtend_shiftLeft pc imm

/-! ## Jumps and branches -/

/-- An instruction whose one effect is to set the pc completes as a jump. -/
theorem completesJump_of_setPc {i : Instr} {s : State} {target : Word} (hexec : exec i s = .next (s.setPc target)) :
    CompletesJump i s target := by
  refine ⟨_, hexec, ⟨s.pc_setPc target, fun j hj => ?_, SameF.of_f_eq rfl⟩, rfl, ⟨rfl, rfl, rfl⟩, rfl,
    SameMemory.of_mem_eq rfl⟩
  rw [List.mem_singleton] at hj
  rw [State.getX_setPc, if_neg (Ne.symm hj)]

/-- A branch on a condition branches when what the condition says of the flags is so. -/
theorem branchesIf_of_branchIf {i : Instr} {imm : BitVec 19} {s : State} {c : Cond} {taken : Prop}
    (hexec : exec i s = branchIf c imm s) (hcond : condHolds s.flagSet c = true ↔ taken) :
    BranchesIf i imm s taken := by
  rw [branchIf, branchTarget_eq_ofInt] at hexec
  refine ⟨fun htaken => ?_, fun hfalls => ?_⟩
  · rw [if_pos (hcond.mpr htaken)] at hexec
    exact completesJump_of_setPc hexec
  · rw [if_neg (mt hcond.mp hfalls)] at hexec
    exact completesJump_of_setPc hexec

/-! ## Conditions that are not a single flag (spec/43_control.md R262 to R280) -/

theorem condHolds_al_iff (g : FlagSet) : condHolds g .al = true ↔ True := iff_of_true rfl trivial

theorem condHolds_hi_iff (g : FlagSet) : condHolds g .hi = true ↔ g.c = false ∧ g.z = false := by
  rw [condHolds, Bool.and_eq_true, Bool.not_eq_true', Bool.not_eq_true']

theorem condHolds_ls_iff (g : FlagSet) : condHolds g .ls = true ↔ g.c = true ∨ g.z = true := by
  rw [condHolds, Bool.or_eq_true]

theorem condHolds_ge_iff (g : FlagSet) : condHolds g .ge = true ↔ g.n = g.v := by rw [condHolds, beq_iff_eq]

theorem condHolds_lt_iff (g : FlagSet) : condHolds g .lt = true ↔ g.n ≠ g.v := by rw [condHolds, bne_iff_ne]

theorem condHolds_gt_iff (g : FlagSet) : condHolds g .gt = true ↔ g.z = false ∧ g.n = g.v := by
  rw [condHolds, Bool.and_eq_true, Bool.not_eq_true', beq_iff_eq]

theorem condHolds_le_iff (g : FlagSet) : condHolds g .le = true ↔ g.z = true ∨ g.n ≠ g.v := by
  rw [condHolds, Bool.or_eq_true, bne_iff_ne]

/-- Settles O26: the flag or the flags that each condition reads. -/
theorem unsignedBranchEffect : Obligations.UnsignedBranchEffect :=
  fun _ _ =>
    ⟨⟨toNat_encodeB .., branchesIf_of_branchIf rfl (condHolds_al_iff _)⟩,
      ⟨toNat_encodeB .., branchesIf_of_branchIf (c := .eq) rfl .rfl⟩,
      ⟨toNat_encodeB .., branchesIf_of_branchIf (c := .ne) rfl (.of_eq (Bool.not_eq_true' _))⟩,
      ⟨toNat_encodeB .., branchesIf_of_branchIf (c := .cs) rfl .rfl⟩,
      ⟨toNat_encodeB .., branchesIf_of_branchIf (c := .cc) rfl (.of_eq (Bool.not_eq_true' _))⟩,
      ⟨toNat_encodeB .., branchesIf_of_branchIf (c := .mi) rfl .rfl⟩,
      ⟨toNat_encodeB .., branchesIf_of_branchIf (c := .pl) rfl (.of_eq (Bool.not_eq_true' _))⟩,
      ⟨toNat_encodeB .., branchesIf_of_branchIf (c := .vs) rfl .rfl⟩,
      ⟨toNat_encodeB .., branchesIf_of_branchIf (c := .vc) rfl (.of_eq (Bool.not_eq_true' _))⟩,
      ⟨toNat_encodeB .., branchesIf_of_branchIf rfl (condHolds_hi_iff _)⟩,
      toNat_encodeB .., branchesIf_of_branchIf rfl (condHolds_ls_iff _)⟩

/-- Settles O27: the signed order from N, V and Z, and the flags P, A and F. -/
theorem signedBranchEffect : Obligations.SignedBranchEffect :=
  fun _ _ =>
    ⟨⟨toNat_encodeB .., branchesIf_of_branchIf rfl (condHolds_ge_iff _)⟩,
      ⟨toNat_encodeB .., branchesIf_of_branchIf rfl (condHolds_lt_iff _)⟩,
      ⟨toNat_encodeB .., branchesIf_of_branchIf rfl (condHolds_gt_iff _)⟩,
      ⟨toNat_encodeB .., branchesIf_of_branchIf rfl (condHolds_le_iff _)⟩,
      ⟨toNat_encodeB .., branchesIf_of_branchIf (c := .od) rfl .rfl⟩,
      ⟨toNat_encodeB .., branchesIf_of_branchIf (c := .ev) rfl (.of_eq (Bool.not_eq_true' _))⟩,
      ⟨toNat_encodeB .., branchesIf_of_branchIf (c := .nan) rfl .rfl⟩,
      toNat_encodeB .., branchesIf_of_branchIf (c := .inf) rfl .rfl⟩

/-- Settles O28: both jumps set the pc alone, one to the pc plus the offset, one to the register. -/
theorem jumpEffect : Obligations.JumpEffect :=
  fun s imm _ =>
    ⟨toNat_encodeJ .., completesJump_of_setPc (jumpTarget_eq_ofInt (s.getX 13) imm ▸ rfl), toNat_encodeR ..,
      completesJump_of_setPc rfl⟩

/-! ## What a store leaves in memory (spec/20_memory.md R69) -/

/-- Of the writes to one address the last one stands. -/
theorem Memory.read_writeAll_of_last (m : Memory) (l : List (Word × Byte)) {i : Nat} (hi : i < l.length)
    (hlast : ∀ j (hj : j < l.length), i < j → l[j].1 ≠ l[i].1) :
    Memory.read (Memory.writeAll m l) l[i].1.toNat = l[i].2 := by
  induction l generalizing m i with
  | nil => simp at hi
  | cons cell rest ih =>
    cases i with
    | zero =>
      have hrest : ∀ later ∈ rest, later.1.toNat ≠ cell.1.toNat := fun later hmem heq => by
        obtain ⟨j, hj, rfl⟩ := List.getElem_of_mem hmem
        exact hlast (j + 1) (by simpa using hj) j.succ_pos (BitVec.eq_of_toNat_eq heq)
      exact (Memory.read_writeAll_of_notMem _ rest _ hrest).trans (Memory.read_write_same ..)
    | succ i =>
      exact ih _ (by simpa using hi) fun j hj hij => hlast (j + 1) (by simpa using hj) (by omega)

theorem getElem_leBytes {n i : Nat} (v : Word) (h : i < (leBytes n v).length) : (leBytes n v)[i] = byteOf v i := by
  simp [leBytes_eq_map]

/-- The bytes of a value, written one to each address, stand there as a store leaves them. -/
theorem storesAt_of_mem_eq {s t : State} {pas : List Word} {v : Word}
    (hmem : t.mem = s.mem.writeAll (pas.zip (leBytes pas.length v))) : StoresAt s t pas v := by
  rw [StoresAt, hmem]
  refine ⟨fun i hi hlast => ?_, fun a hout => Memory.read_writeAll_of_notMem _ _ _ fun cell hcell => ?_⟩
  · have hread := Memory.read_writeAll_of_last s.mem (pas.zip (leBytes pas.length v)) (i := i) (by simpa using hi)
    simp only [List.getElem_zip, getElem_leBytes] at hread
    exact hread fun j hj hij => hlast j (by simpa using hj) hij
  · obtain ⟨i, hi, hpa⟩ := List.getElem_of_mem (List.of_mem_zip hcell).1
    exact hpa ▸ hout i hi

/-! ## Going on from an access, or taking its trap (spec/40_engine.md R147, R157) -/

theorem State.memRead_of_translateBytes {s : State} {va : Word} {n : Nat} {pas : List Word}
    (h : s.translateBytes .read va n = .ok pas) : s.memRead va n = .ok (leWord (s.bytesAt pas)) := by
  rw [State.memRead, State.readVirtual, h]
  rfl

theorem State.memRead_of_fault {s : State} {va : Word} {n : Nat} {f : AccessFault}
    (h : s.translateBytes .read va n = .error f) : s.memRead va n = .error f := by
  rw [State.memRead, State.readVirtual, h]

theorem State.memWrite_of_translateBytes {s : State} {va : Word} {n : Nat} {pas : List Word} (v : Word)
    (h : s.translateBytes .write va n = .ok pas) :
    s.memWrite va n v = .ok (s.setMem (s.mem.writeAll (pas.zip (leBytes n v)))) := by
  rw [State.memWrite, h]

theorem State.memWrite_of_fault {s : State} {va : Word} {n : Nat} {f : AccessFault} (v : Word)
    (h : s.translateBytes .write va n = .error f) : s.memWrite va n v = .error f := by
  rw [State.memWrite, h]

theorem takesAccessFault_of_accessFault {i : Instr} {s : State} {f : AccessFault}
    (hexec : exec i s = .next (s.accessFault f)) : TakesAccessFault i s f := ⟨_, hexec, s.accessFault_trapTaken f⟩

/-- An instruction that reads `n` bytes completes from the bytes' value, or takes the trap of the failing read. -/
theorem loadsFrom_of_loadThen {i : Instr} {s : State} {va : Word} {n : Nat} {effect : Word → State}
    {completes : List Word → Prop} (hexec : exec i s = loadThen s va n effect)
    (hcompletes : ∀ pas, pas.length = n → exec i s = .next (effect (leWord (s.bytesAt pas))) → completes pas) :
    LoadsFrom i s va n completes := by
  refine ⟨fun pas hpas => ?_, fun f hf => ?_⟩
  · obtain ⟨hlen, -⟩ := State.translateBytes_ok hpas
    exact hcompletes pas hlen (hexec.trans (loadThen_ok effect (State.memRead_of_translateBytes hpas)))
  · obtain ⟨hkind, -⟩ := State.translateBytes_error hf
    exact ⟨hkind, takesAccessFault_of_accessFault (hexec.trans (loadThen_error effect (State.memRead_of_fault hf)))⟩

/-- An instruction that writes `n` bytes completes from a state whose memory alone changed, by the store, or takes the
trap of the failing write. -/
theorem storesTo_of_storeThen {i : Instr} {s : State} {va v : Word} {n : Nat} {effect : State → State}
    {completes : List Word → Prop} (hexec : exec i s = storeThen s va n v effect)
    (hcompletes : ∀ pas m, StoresAt s (s.setMem m) pas v → exec i s = .next (effect (s.setMem m)) → completes pas) :
    StoresTo i s va n completes := by
  refine ⟨fun pas hpas => ?_, fun f hf => ?_⟩
  · obtain ⟨rfl, -⟩ := State.translateBytes_ok hpas
    exact hcompletes pas _ (storesAt_of_mem_eq rfl)
      (hexec.trans (storeThen_ok effect (State.memWrite_of_translateBytes v hpas)))
  · obtain ⟨hkind, -⟩ := State.translateBytes_error hf
    exact ⟨hkind, takesAccessFault_of_accessFault (hexec.trans (storeThen_error effect (State.memWrite_of_fault v hf)))⟩

/-! ## Calls and the return (spec/43_control.md R282, R284, R285) -/

/-- The stack pointer and then the pc, as a push, a call and a return set them. -/
theorem State.getX_setSp_setPc (s : State) (sp target : Word) :
    ((s.setX 15 sp).setPc target).getX 13 = target ∧ ((s.setX 15 sp).setPc target).getX 15 = sp ∧
      SameXBut [13, 15] s ((s.setX 15 sp).setPc target) := by
  refine ⟨State.pc_setPc _ target, ?_, fun j hj => ?_⟩
  · rw [State.getX_setPc, if_neg (by decide), State.getX_setX_same]
  · simp only [List.mem_cons, List.not_mem_nil, or_false, not_or] at hj
    obtain ⟨hpc, hsp⟩ := hj
    rw [State.getX_setPc, if_neg (Ne.symm hpc), State.getX_setX_ne _ _ (Ne.symm hsp)]

/-- An instruction that pushes a word and jumps stores it below x15, lowers x15 and sets the pc. -/
theorem storesTo_of_pushThenJump {i : Instr} {s : State} {v next : Word} (hexec : exec i s = pushThenJump s v next) :
    StoresTo i s (s.getX 15 - 4#32) 4 fun pas => CompletesStore i s pas v (s.getX 15 - 4#32) next := by
  refine storesTo_of_storeThen hexec fun pas m hstores hnext => ?_
  obtain ⟨hpc, hsp, hother⟩ := (s.setMem m).getX_setSp_setPc (s.sp - 4#32) next
  exact ⟨_, hnext, hstores, hpc, hsp, hother, SameF.of_f_eq rfl, rfl, ⟨rfl, rfl, rfl⟩, rfl⟩

/-- Settles O29: the two calls are the push of pc + 4 with their own targets; RET reads before it changes x15. -/
theorem callReturnEffect : Obligations.CallReturnEffect := by
  intro s imm xs slot ra
  refine ⟨toNat_encodeJ .., toNat_encodeR .., rfl,
    storesTo_of_pushThenJump (jumpTarget_eq_ofInt (s.getX 13) imm ▸ rfl), storesTo_of_pushThenJump rfl,
    loadsFrom_of_loadThen rfl fun pas hlen hnext => ?_⟩
  have hvalue : (leWord (s.bytesAt pas)).toNat = byteSum (s.bytesAt pas) :=
    toNat_leWord (by simp [State.bytesAt, hlen])
  obtain ⟨hpc, hsp, hother⟩ := s.getX_setSp_setPc (s.sp + 4#32) (leWord (s.bytesAt pas))
  exact ⟨_, hnext, (congrArg BitVec.toNat hpc).trans hvalue, hsp, hother, SameF.of_f_eq rfl, rfl, ⟨rfl, rfl, rfl⟩,
    rfl, SameMemory.of_mem_eq rfl⟩

end Sys2Proof.Machine
end

section
/-! SUPPORT. The words that the system instructions read and write, and their completion in the System ring. What the
family of spec/44_privileged.md claims. -/

namespace Sys2Proof.Machine

/-! ## The flags word and MASK (spec/10_state.md R27, R28, R35) -/

theorem toNat_and_fields (w : Word) : (w &&& 0x000FFFFF#32).toNat = w.toNat % 2 ^ 20 :=
  (BitVec.toNat_and ..).trans (Nat.and_two_pow_sub_one_eq_mod w.toNat 20)

theorem toNat_lt_of_reservedZero {w : Word} (h : w &&& 0xFFF00000#32 = 0#32) : w.toNat < 2 ^ 20 := by
  rw [← and_fields_of_reservedZero h, toNat_and_fields]
  exact Nat.mod_lt _ (by decide)

theorem toNat_codecFlags (w : Word) : (codecFlags w).toNat = w.toNat % 2 ^ 20 := by
  rw [codecFlags, FlagsCodec.encode_decode, toNat_and_fields]

theorem mask_setWidth_eq_ofNat (s : State) : s.flagSet.mask.setWidth 32 = BitVec.ofNat 32 (s.flags.toNat % 2 ^ 8) :=
  (BitVec.ofNat_toNat 32 _).symm.trans (congrArg (BitVec.ofNat 32) (BitVec.extractLsb'_toNat 0 8 s.flags))

/-- A mask written into decoded flags takes bits 7:0 of the word, and the other fields stay in theirs. -/
theorem FlagsCodec.encode_with_mask {w : Word} (h : w &&& 0xFFF00000#32 = 0#32) (v : Word) :
    FlagsCodec.encode { FlagsCodec.decode w with mask := v.setWidth 8 } = w &&& 0xFFFFFF00#32 ||| (v &&& 0xFF#32) := by
  have hbits : FlagsCodec.encode { FlagsCodec.decode w with mask := v.setWidth 8 } =
      (w &&& 0x000FFFFF#32) &&& 0xFFFFFF00#32 ||| (v &&& 0xFF#32) := by
    apply BitVec.eq_of_getLsbD_eq
    intro i hi
    rw [getLsbD_encode _ _ hi, BitVec.getLsbD_or, BitVec.getLsbD_and, BitVec.getLsbD_and, BitVec.getLsbD_and]
    interval_cases i <;> simp [FlagsCodec.decode, Config.flagsLayout]
  rwa [and_fields_of_reservedZero h] at hbits

/-! ## Completion (spec/40_engine.md R145, R149, R151) -/

/-- An instruction that retires an x destination and no flag completes with the value it retires. -/
theorem completesX_of_retireX {i : Instr} {s : State} {xd : XReg} {v : Word}
    (hexec : exec i s = .next (s.retireX xd v)) : CompletesX i s xd v := by
  refine ⟨_, hexec, ⟨?_, fun hpc => ?_, fun j hj => ?_⟩, rfl, SameF.of_f_eq rfl, ⟨rfl, rfl, rfl⟩, rfl,
    SameMemory.of_mem_eq rfl⟩
  · rw [State.getX_retireX, if_pos rfl]
  · rw [State.getX_retireX, if_neg hpc, if_pos rfl, State.pc]
  · simp only [List.mem_cons, List.not_mem_nil, or_false, not_or] at hj
    obtain ⟨hdest, hpc⟩ := hj
    rw [State.getX_retireX, if_neg (Ne.symm hdest), if_neg (Ne.symm hpc)]

/-- An instruction that advances the pc and writes flags and memmap completes with the two words it writes. -/
theorem completesSystem_of_advance {i : Instr} {s : State} {flags memmap : Word}
    (hexec : exec i s = .next ((s.advance.setFlags flags).setMemmap memmap)) : CompletesSystem i s flags memmap := by
  refine ⟨_, hexec, ⟨?_, fun j hj => ?_, SameF.of_f_eq rfl⟩, rfl, rfl, ⟨rfl, rfl, rfl⟩, SameMemory.of_mem_eq rfl⟩
  · rw [State.getX_setMemmap, State.getX_setFlags, State.getX_advance, if_pos rfl, State.pc]
  · rw [List.mem_singleton] at hj
    rw [State.getX_setMemmap, State.getX_setFlags, State.getX_advance, if_neg (Ne.symm hj)]

/-! ## The claims -/

/-- Settles O36: the words at 0x40 and 0x44 as physical reads, the second through the codec. -/
theorem iretEffect : Obligations.IretEffect := by
  intro s hring
  refine ⟨s.trapReturn, systemOnly_system _ hring, ?_, ?_, fun j hj => ?_, SameF.of_f_eq s.trapReturn_f,
    s.trapReturn_memmap, ⟨s.trapReturn_pending, s.trapReturn_halted, s.trapReturn_raises⟩,
    SameMemory.of_mem_eq s.trapReturn_mem⟩
  · rw [State.getX_trapReturn, if_pos rfl]
    exact s.toNat_physRead_four (pa := 0x40#32) (by decide)
  · rw [State.trapReturn_flags, toNat_codecFlags]
    exact congrArg (· % 2 ^ 20) (s.toNat_physRead_four (pa := 0x44#32) (by decide))
  · rw [List.mem_singleton] at hj
    rw [State.getX_trapReturn, if_neg (Ne.symm hj)]

/-- Settles O34: NOP is a jump to the next word, and the two reads retire the flags word and its MASK. -/
theorem unprivilegedSystemEffect : Obligations.UnprivilegedSystemEffect :=
  fun s _ =>
    ⟨completesJump_of_setPc rfl, completesX_of_retireX rfl, toNat_lt_of_reservedZero,
      completesX_of_retireX (mask_setWidth_eq_ofNat s ▸ rfl), rfl, toNat_encodeR .., toNat_encodeR ..⟩

/-- Settles O35: in the System ring each of the five is its effect, and the codec of WRFL and WRMK is a mask. -/
theorem privilegedSystemEffect : Obligations.PrivilegedSystemEffect := by
  intro s xd xs hring
  have system (effect : State) : systemOnly s effect = .next effect := systemOnly_system effect hring
  refine ⟨⟨_, system _, rfl, SameXBut.of_x_eq rfl [], SameF.of_f_eq rfl, rfl, rfl, rfl, rfl, SameMemory.of_mem_eq rfl⟩,
    completesSystem_of_advance ?_, fun hzero => completesSystem_of_advance ?_, completesX_of_retireX (system _),
    completesSystem_of_advance (system _), rfl, toNat_encodeR .., toNat_encodeR .., toNat_encodeR .., toNat_encodeR ..⟩
  · rw [← FlagsCodec.encode_decode]
    exact system _
  · rw [← FlagsCodec.encode_with_mask hzero]
    exact system _

end Sys2Proof.Machine
end

section
/-! SUPPORT. The effective address, the values that loads give and the completions of loads, stores, PUSH and POP. What
the family of spec/45_memory_access.md claims. -/

namespace Sys2Proof.Machine

/-! ## The effective address (spec/45_memory_access.md R330) -/

theorem effectiveAddress_eq_addressOf (s : State) (xs : XReg) (imm : BitVec 16) :
    effectiveAddress (s.getX xs) imm = addressOf s xs imm := by
  rw [effectiveAddress, simm16_eq_ofInt, addressOf, BitVec.ofInt_add, BitVec.ofInt_natCast, BitVec.ofNat_toNat,
    BitVec.setWidth_eq]

/-! ## Loaded values and their extensions (spec/45_memory_access.md R331 to R335) -/

@[simp] theorem State.length_bytesAt (s : State) (pas : List Word) : (s.bytesAt pas).length = pas.length :=
  List.length_map ..

theorem leWord_eq_ofNat {bs : List Byte} (hlen : bs.length ≤ 4) : leWord bs = BitVec.ofNat 32 (byteSum bs) := by
  rw [← toNat_leWord hlen, BitVec.ofNat_toNat, BitVec.setWidth_eq]

/-- Cutting a value of at most four bytes to its own width loses nothing. -/
theorem toNat_setWidth_leWord {bs : List Byte} (hlen : bs.length ≤ 4) :
    ((leWord bs).setWidth (8 * bs.length)).toNat = byteSum bs := by
  have hsum := byteSum_lt bs
  rw [BitVec.toNat_setWidth, toNat_leWord hlen, Nat.pow_mul]
  exact Nat.mod_eq_of_lt hsum

/-- Zero-extension of the loaded bytes is their value. -/
theorem zeroExtend_leWord {bs : List Byte} (hlen : bs.length ≤ 4) :
    ((leWord bs).setWidth (8 * bs.length)).setWidth 32 = BitVec.ofNat 32 (byteSum bs) := by
  rw [← toNat_setWidth_leWord hlen, BitVec.ofNat_toNat]

/-- Sign-extension of the loaded bytes subtracts the weight above them where their top bit is set. -/
theorem signExtend_leWord {bs : List Byte} (hlen : bs.length ≤ 4) :
    ((leWord bs).setWidth (8 * bs.length)).signExtend 32 =
      BitVec.ofInt 32 (if 2 * byteSum bs < 2 ^ (8 * bs.length) then byteSum bs
        else byteSum bs - (2 ^ (8 * bs.length) : Nat)) := by
  rw [BitVec.signExtend, BitVec.toInt_eq_toNat_cond, toNat_setWidth_leWord hlen]

theorem zext16_leWord {bs : List Byte} (hlen : bs.length = 2) : zext16 (leWord bs) = BitVec.ofNat 32 (byteSum bs) := by
  have h := zeroExtend_leWord (bs := bs) (by omega)
  rwa [hlen] at h

theorem zext8_leWord {bs : List Byte} (hlen : bs.length = 1) : zext8 (leWord bs) = BitVec.ofNat 32 (byteSum bs) := by
  have h := zeroExtend_leWord (bs := bs) (by omega)
  rwa [hlen] at h

theorem sext16_leWord {bs : List Byte} (hlen : bs.length = 2) : sext16 (leWord bs) =
    BitVec.ofInt 32 (if byteSum bs < 2 ^ 15 then byteSum bs else byteSum bs - 2 ^ 16) := by
  have h := signExtend_leWord (bs := bs) (by omega)
  rw [hlen] at h
  exact h.trans (congrArg _ (if_congr (by omega) rfl rfl))

theorem sext8_leWord {bs : List Byte} (hlen : bs.length = 1) : sext8 (leWord bs) =
    BitVec.ofInt 32 (if byteSum bs < 2 ^ 7 then byteSum bs else byteSum bs - 2 ^ 8) := by
  have h := signExtend_leWord (bs := bs) (by omega)
  rw [hlen] at h
  exact h.trans (congrArg _ (if_congr (by omega) rfl rfl))

/-! ## Loads (spec/45_memory_access.md R331 to R335, R339) -/

/-- A load from base plus signed offset completes from the bytes it reads, or takes the trap of the failing read. -/
theorem loadsFrom_addressOf {i : Instr} {s : State} {xs : XReg} {imm : BitVec 16} {n : Nat} {effect : Word → State}
    {completes : List Word → Prop} (hexec : exec i s = loadThen s (effectiveAddress (s.getX xs) imm) n effect)
    (hcompletes : ∀ pas, (s.bytesAt pas).length = n → exec i s = .next (effect (leWord (s.bytesAt pas))) →
      completes pas) : LoadsFrom i s (addressOf s xs imm) n completes := by
  rw [effectiveAddress_eq_addressOf] at hexec
  exact loadsFrom_of_loadThen hexec fun pas hlen => hcompletes pas (by rwa [State.length_bytesAt])

/-- A load into an x register completes with the extension of the bytes it reads. -/
theorem loadsFrom_of_retireX {i : Instr} {s : State} {xt xs : XReg} {imm : BitVec 16} {n : Nat} {extend : Word → Word}
    {value : List Word → Word}
    (hexec : exec i s = loadThen s (effectiveAddress (s.getX xs) imm) n fun v => s.retireX xt (extend v))
    (hvalue : ∀ pas, (s.bytesAt pas).length = n → extend (leWord (s.bytesAt pas)) = value pas) :
    LoadsFrom i s (addressOf s xs imm) n fun pas => CompletesX i s xt (value pas) :=
  loadsFrom_addressOf hexec fun pas hlen hnext => completesX_of_retireX (hvalue pas hlen ▸ hnext)

/-- Retire of an f destination without flags. -/
theorem State.writesF_advance_setF (s : State) (ft : FReg) (b : Word) : WritesF s (s.advance.setF ft b) ft b := by
  refine ⟨State.getF_setF_same .., fun j hj => ?_, ?_, fun j hj => ?_⟩
  · rw [State.getF_setF_ne _ _ (Ne.symm hj), State.getF_advance]
  · rw [State.getX_setF, State.getX_advance, if_pos rfl, State.pc]
  · rw [List.mem_singleton] at hj
    rw [State.getX_setF, State.getX_advance, if_neg (Ne.symm hj)]

/-- Settles O30: each load is its width and its extension; FLD retires the four bytes unchanged. -/
theorem loadEffect : Obligations.LoadEffect := by
  intro s xt xs ft imm ea value
  refine ⟨⟨toNat_encodeI .., loadsFrom_of_retireX (extend := id) rfl fun _ hlen => leWord_eq_ofNat hlen.le⟩,
    ⟨toNat_encodeI .., loadsFrom_of_retireX rfl fun _ => zext16_leWord⟩,
    ⟨toNat_encodeI .., loadsFrom_of_retireX rfl fun _ => sext16_leWord⟩,
    ⟨toNat_encodeI .., loadsFrom_of_retireX rfl fun _ => zext8_leWord⟩,
    ⟨toNat_encodeI .., loadsFrom_of_retireX rfl fun _ => sext8_leWord⟩,
    toNat_encodeI .., loadsFrom_addressOf rfl fun pas hlen hnext => ?_⟩
  rw [leWord_eq_ofNat hlen.le] at hnext
  exact ⟨_, hnext, s.writesF_advance_setF .., rfl, ⟨rfl, rfl, rfl⟩, rfl, SameMemory.of_mem_eq rfl⟩

/-! ## Stores (spec/45_memory_access.md R336 to R338, R340) -/

/-- A store completes with the low bytes of its data register in memory and the pc moved on. -/
theorem storesTo_of_advance {i : Instr} {s : State} {xs : XReg} {imm : BitVec 16} {n : Nat} {v : Word}
    (hexec : exec i s = storeThen s (effectiveAddress (s.getX xs) imm) n v State.advance) :
    StoresTo i s (addressOf s xs imm) n fun pas => CompletesStore i s pas v (s.getX 15) (s.getX 13 + 4#32) := by
  rw [effectiveAddress_eq_addressOf] at hexec
  refine storesTo_of_storeThen hexec fun pas m hstores hnext => ⟨_, hnext, hstores, ?_, ?_, fun j hj => ?_,
    SameF.of_f_eq rfl, rfl, ⟨rfl, rfl, rfl⟩, rfl⟩
  · exact State.pc_setPc ..
  · rw [State.getX_advance, if_neg (by decide), State.getX_setMem]
  · simp only [List.mem_cons, List.not_mem_nil, or_false, not_or] at hj
    obtain ⟨hpc, -⟩ := hj
    rw [State.getX_advance, if_neg (Ne.symm hpc), State.getX_setMem]

/-- Settles O31: the four stores differ in their width and their data register alone. -/
theorem storeEffect : Obligations.StoreEffect :=
  fun _ _ _ _ _ =>
    ⟨⟨toNat_encodeI .., storesTo_of_advance rfl⟩, ⟨toNat_encodeI .., storesTo_of_advance rfl⟩,
      ⟨toNat_encodeI .., storesTo_of_advance rfl⟩, toNat_encodeI .., storesTo_of_advance rfl⟩

/-! ## PUSH and POP (spec/45_memory_access.md R341 to R343) -/

/-- What POP leaves in every x register: the destination wins over x15, and both over the advance of the pc. -/
theorem State.getX_advance_setSp_setX (s : State) (sp : Word) (xd : XReg) (v : Word) (j : XReg) :
    ((s.advance.setX 15 sp).setX xd v).getX j =
      if xd = j then v else if 15 = j then sp else if 13 = j then s.pc + 4#32 else s.getX j := by
  rw [State.getX_setX, State.getX_setX, State.getX_advance]

/-- Settles O32: PUSH is the push of a call, with the next word as its target; POP writes x15 under its destination. -/
theorem stackEffect : Obligations.StackEffect := by
  intro s xs xd slot
  refine ⟨⟨toNat_encodeR .., storesTo_of_pushThenJump rfl⟩, toNat_encodeR ..,
    loadsFrom_of_loadThen rfl fun pas hlen hnext => ⟨_, hnext, ?_, fun hsp => ?_, fun hpc => ?_, fun j hj => ?_,
      SameF.of_f_eq rfl, rfl, ⟨rfl, rfl, rfl⟩, rfl, SameMemory.of_mem_eq rfl⟩⟩
  · rw [State.getX_setX_same, toNat_leWord (by rw [State.length_bytesAt, hlen])]
  · rw [State.getX_advance_setSp_setX, if_neg hsp, if_pos rfl, State.sp]
  · rw [State.getX_advance_setSp_setX, if_neg hpc, if_neg (by decide), if_pos rfl, State.pc]
  · simp only [List.mem_cons, List.not_mem_nil, or_false, not_or] at hj
    obtain ⟨hdest, hpc, hsp⟩ := hj
    rw [State.getX_advance_setSp_setX, if_neg (Ne.symm hdest), if_neg (Ne.symm hsp), if_neg (Ne.symm hpc)]

/-- At different addresses a store leaves just the bytes of its value. -/
theorem StoresAt.bytesAt_eq {s t : State} {pas : List Word} {v : Word} (h : StoresAt s t pas v) (hnodup : pas.Nodup) :
    t.bytesAt pas = leBytes pas.length v := by
  obtain ⟨hstored, -⟩ := h
  refine List.ext_getElem (by simp) fun i hi hi' => ?_
  rw [State.length_bytesAt] at hi
  have hlast : ∀ j (hj : j < pas.length), i < j → pas[j] ≠ pas[i] := fun j hj hij heq =>
    hij.ne' (hnodup.getElem_inj_iff.mp heq)
  rw [getElem_leBytes, ← hstored i hi hlast]
  simp [State.bytesAt]

/-- Settles O33: with translation off POP reads the four addresses that PUSH wrote, which are different ones. -/
theorem pushThenPop : Obligations.PushThenPop := by
  intro s t u xs xd hm hpush hpop
  obtain ⟨⟨-, hstores, -⟩, -⟩ := stackEffect s xs xd
  obtain ⟨-, -, hloads, -⟩ := stackEffect t xs xd
  obtain ⟨t', ht, hstored, -, hsp, -, -, hflags, -⟩ := hstores _ (State.translateBytes_of_m_clear hm _ _ _)
  obtain rfl := Host.Outcome.next.inj (ht.symm.trans hpush)
  have hm' : t'.flagSet.m = false := by rwa [State.flagSet, hflags]
  obtain ⟨u', hu, hvalue, hsp', -⟩ := hloads _ (State.translateBytes_of_m_clear hm' _ _ _)
  obtain rfl := Host.Outcome.next.inj (hu.symm.trans hpop)
  refine ⟨BitVec.eq_of_toNat_eq ?_, fun hxd => ?_⟩
  · rw [hvalue, hsp, hstored.bytesAt_eq (addrsFrom_nodup _ (by decide)), byteSum_leBytes, addrsFrom_length]
    exact Nat.mod_eq_of_lt (s.getX xs).isLt
  · rw [hsp' hxd, hsp, BitVec.sub_add_cancel]

end Sys2Proof.Machine
end

section
/-! SUPPORT. The lowest eligible line, the accesses of a handler, and PrivilegeFault. What the family of
spec/60_exceptions.md claims of single traps. -/

namespace Sys2Proof.Machine

/-! ## The line a checkpoint takes (spec/60_exceptions.md R372 to R374) -/

theorem State.beq_dispatching_eq (s : State) (l : Line) :
    (s.lineState true l == .dispatching) = (s.pending.getLsbD l.val && s.flagSet.mask.getLsbD l.val) := by
  rw [State.lineState]
  cases s.pending.getLsbD l.val <;> cases s.flagSet.mask.getLsbD l.val <;> rfl

/-- The eligible line is the first line that is pending and unmasked. -/
theorem State.eligibleLine_eq_find? (s : State) :
    s.eligibleLine = Fin.find? fun l : Line => s.pending.getLsbD l.val && s.flagSet.mask.getLsbD l.val := by
  rw [Fin.find?_eq_find?_finRange, State.eligibleLine]
  simp only [State.beq_dispatching_eq]

theorem State.eligibleLine_eq_none {s : State}
    (h : ∀ l, l < 8 → ¬(s.pending.getLsbD l = true ∧ s.flagSet.mask.getLsbD l = true)) : s.eligibleLine = none := by
  rw [State.eligibleLine_eq_find?, Fin.find?_eq_none_iff]
  exact fun l => Bool.eq_false_iff.mpr fun hl => h l l.isLt (Bool.and_eq_true_iff.mp hl)

theorem State.eligibleLine_eq_some {s : State} {l : Line} (hpending : s.pending.getLsbD l.val = true)
    (hmask : s.flagSet.mask.getLsbD l.val = true)
    (hlower : ∀ k, k < l.val → ¬(s.pending.getLsbD k = true ∧ s.flagSet.mask.getLsbD k = true)) :
    s.eligibleLine = some l := by
  rw [State.eligibleLine_eq_find?, Fin.find?_eq_some_iff]
  exact ⟨Bool.and_eq_true_iff.mpr ⟨hpending, hmask⟩,
    fun k hk => Bool.eq_false_iff.mpr fun hl => hlower k hk (Bool.and_eq_true_iff.mp hl)⟩

theorem State.checkpoint_of_no_line {s : State} (hrun : s.Running) (h : s.eligibleLine = none) :
    s.checkpoint = s := by
  simp only [State.checkpoint, hrun, h]

theorem State.checkpoint_of_line {s : State} {l : Line} (hrun : s.Running) (h : s.eligibleLine = some l) :
    s.checkpoint = s.trapEntry (.line l) s.pc 0#32 0#32 := by
  simp only [State.checkpoint, hrun, h]

/-- The entry of a line takes the trap of that line, of kind 0. -/
theorem State.trapEntry_line_trapTaken (s : State) (l : Line) (retpc info : Word) :
    TrapTaken s (s.trapEntry (.line l) retpc info 0#32) l.val 0 retpc info := by
  rw [← toNat_causeCode_line l]
  exact s.trapEntry_trapTaken (.line l) retpc info (kind := 0) (by decide)

/-- Settles O45: the checkpoint looks for the first pending unmasked line, and enters its trap. -/
theorem checkpointTakesLowestLine : Obligations.CheckpointTakesLowestLine := by
  intro s hrun
  refine ⟨fun hnone => State.checkpoint_of_no_line hrun (State.eligibleLine_eq_none hnone),
    fun l hl hpending hmask hlower => ?_⟩
  have hline : s.eligibleLine = some ⟨l, hl⟩ := State.eligibleLine_eq_some hpending hmask hlower
  rw [State.checkpoint_of_line hrun hline]
  exact s.trapEntry_line_trapTaken ⟨l, hl⟩ s.pc 0#32

/-! ## Accesses in a handler (spec/60_exceptions.md R382, R391) -/

/-- With M clear a fetch reads the word at the pc physically, and cannot fail. -/
theorem State.fetch_of_m_clear {s : State} (hm : s.flagSet.m = false) : s.fetch = .ok (s.physRead (s.getX 13) 4) :=
  State.readVirtual_of_m_clear hm .execute s.pc 4

/-- Settles O46: the trap of the entry's cause and kind; the entry clears M, so the next fetch is physical. -/
theorem trapEntryEffect : Obligations.TrapEntryEffect := by
  intro s c retpc info kind hkind
  refine ⟨s.trapEntry_trapTaken c retpc info hkind, State.fetch_of_m_clear ?_⟩
  rw [State.flagSet_trapEntry, entryFlags_m]

/-- Settles O47: IRET's effect on the entered state, whose save area holds the flags and the return address. -/
theorem iretUndoesTrapEntry : Obligations.IretUndoesTrapEntry := by
  intro s t c retpc info kind hzero hexec
  have hring : (s.trapEntry c retpc info kind).flagSet.r = false := by rw [State.flagSet_trapEntry, entryFlags_r]
  obtain ⟨u, hu, hpc, hflags, hx, hf, hmap, -, -⟩ := iretEffect _ hring
  obtain rfl : u = t := Host.Outcome.next.inj (hu.symm.trans hexec)
  obtain ⟨hsavedPc, hsavedFlags, -, -⟩ := s.wordAt_writeSaveArea c retpc info kind
  have hword (a : Nat) : (s.trapEntry c retpc info kind).wordAt a = (s.writeSaveArea c retpc info kind).wordAt a :=
    State.wordAt_congr fun _ _ => by rw [State.trapEntry_mem]
  refine ⟨BitVec.eq_of_toNat_eq ?_, BitVec.eq_of_toNat_eq ?_, fun j hj => ?_, fun j => ?_, ?_⟩
  · rw [hflags, hword, hsavedFlags, Nat.mod_eq_of_lt (toNat_lt_of_reservedZero hzero)]
  · rw [hpc, hword, hsavedPc]
  · rw [hx j hj, State.getX_trapEntry, if_neg (fun h => hj (by simp [h]))]
  · rw [hf j, State.getF_trapEntry]
  · rw [hmap, State.trapEntry_memmap]

/-- Settles O49: with M clear every access is physical, and with MASK clear after the instruction the checkpoint takes
no line. -/
theorem handlerIsUndisturbed : Obligations.HandlerIsUndisturbed := by
  intro s hrun ⟨_, hm, _⟩
  have hm' : s.begun.flagSet.m = false := by rw [State.begun_flagSet, hm]
  have hfetch : s.begun.fetch = .ok (s.physRead (s.getX 13) 4) := by
    rw [State.fetch_of_m_clear hm', State.physRead_congr s.begun_mem]
    exact congrArg (fun pc => Except.ok (s.physRead pc 4)) s.begun_pc
  refine ⟨fun k va n => ⟨_, State.translateBytes_of_m_clear hm' k va n⟩, hfetch,
    fun i t hdecode hexec ⟨_, _, hmask⟩ => ?_⟩
  rw [step_of_running hrun, fetchAndExecute_of_decoded hfetch hdecode hexec, State.checkpoint_of_mask_zero hmask]

/-! ## PrivilegeFault (spec/60_exceptions.md R364; spec/44_privileged.md R300) -/

/-- In the User ring each of the six privileged instructions answers PrivilegeFault, and nothing of its effect. -/
theorem exec_of_requiresSystemRing {i : Instr} {s : State} (hi : requiresSystemRing i = true)
    (hring : s.userRing = true) : exec i s = .next s.privilegeFault := by
  cases i
  case halt | iret | wrfl | wrmk | rdmm | wrmm => exact systemOnly_user _ hring
  all_goals cases hi

/-- The privileged instructions by name (spec/44_privileged.md R300). -/
theorem requiresSystemRing_iff (i : Instr) : requiresSystemRing i = true ↔
    i = .halt ∨ i = .iret ∨ (∃ xs, i = .wrfl xs) ∨ (∃ xs, i = .wrmk xs) ∨ (∃ xd, i = .rdmm xd) ∨
      ∃ xs, i = .wrmm xs := by
  constructor
  · intro hi
    cases i
    case halt | iret | wrfl | wrmk | rdmm | wrmm => simp
    all_goals cases hi
  · rintro (rfl | rfl | ⟨_, rfl⟩ | ⟨_, rfl⟩ | ⟨_, rfl⟩ | ⟨_, rfl⟩) <;> rfl

/-- A trap entry masks every line, so the checkpoint after it takes none (spec/40_engine.md R158). -/
theorem State.checkpoint_trapEntry (s : State) (c : Cause) (retpc info kind : Word) :
    (s.trapEntry c retpc info kind).checkpoint = s.trapEntry c retpc info kind :=
  State.checkpoint_of_mask_zero (by rw [State.flagSet_trapEntry, entryFlags_mask])

/-- A cycle in the User ring that fetches a privileged instruction is the trap of cause 10, with the fetched word as
info. -/
theorem fetchAndExecute_of_privileged {decoder : Word → Option Instr} {s : State} {w : Word} {i : Instr}
    (hfetch : s.fetch = .ok w) (hdecode : decoder w = some i) (hi : requiresSystemRing i = true)
    (hring : s.flagSet.r = true) :
    ∃ t, fetchAndExecute decoder s = .next t ∧ TrapTaken s t 10 0 (s.getX 13) w := by
  refine ⟨_, fetchAndExecute_of_decoded hfetch hdecode (exec_of_requiresSystemRing hi hring), ?_⟩
  rw [State.privilegeFault_of_fetch hfetch, State.checkpoint_trapEntry]
  exact s.trapEntry_trapTaken .privilegeFault s.pc w (kind := 0) (by decide)

/-- Settles O37: the cycle and the step from the state whose raise is latched, which has the ring and the pc of `s`. -/
theorem privilegeFaultInUserRing : Obligations.PrivilegeFaultInUserRing := by
  refine ⟨requiresSystemRing_iff, fun decoder raise s w i hrun hfetch hdecode hi hring => ?_,
    fun s w i hrun hfetch hdecode hi hring => ?_⟩
  · have htrap := fetchAndExecute_of_privileged hfetch hdecode hi (by rwa [State.latch_flagSet])
    rwa [← cycle_of_running hrun, show (s.latch raise).getX 13 = s.getX 13 from s.latch_pc raise] at htrap
  · have htrap := fetchAndExecute_of_privileged hfetch hdecode hi (by rwa [State.begun_flagSet])
    rwa [← step_of_running hrun, show s.begun.getX 13 = s.getX 13 from s.begun_pc] at htrap

end Sys2Proof.Machine
end

section
/-! SUPPORT. What an instruction can answer in the User ring, the traps it can take there, and the three ways a
User-ring step can end. The confinement that spec/60_exceptions.md R395 claims. -/

namespace Sys2Proof.Machine

/-! ## What a User-ring instruction can answer (spec/60_exceptions.md R395) -/

/-- `t` has the ring, M, MASK, LLL, memmap and HALTED of `s`: all that the User ring is confined to. -/
structure KeepsControl (s t : State) : Prop where
  ring : t.flagSet.r = s.flagSet.r
  translation : t.flagSet.m = s.flagSet.m
  mask : t.flagSet.mask = s.flagSet.mask
  lll : t.flagSet.lll = s.flagSet.lll
  memmap : t.memmap = s.memmap
  halted : t.halted = s.halted

theorem KeepsControl.of_flagSet_eq {s t : State} (hflags : t.flagSet = s.flagSet) (hmap : t.memmap = s.memmap)
    (hhalted : t.halted = s.halted) : KeepsControl s t := by
  constructor <;> simp only [hflags, hmap, hhalted]

theorem KeepsControl.of_afterInt {s t : State} {res : IntResult} (hflags : t.flagSet = s.flagSet.afterInt res)
    (hmap : t.memmap = s.memmap) (hhalted : t.halted = s.halted) : KeepsControl s t := by
  constructor <;> simp only [hflags, hmap, hhalted, FlagSet.afterInt]

theorem KeepsControl.of_afterFloat {s t : State} {b : Word} (hflags : t.flagSet = s.flagSet.afterFloat b)
    (hmap : t.memmap = s.memmap) (hhalted : t.halted = s.halted) : KeepsControl s t := by
  constructor <;> simp only [hflags, hmap, hhalted, FlagSet.afterFloat]

/-- What an instruction can answer in the User ring: it completes and keeps control, or it takes the trap of a failed
access or of a privileged instruction. -/
inductive UserAnswer (s : State) : State → Prop where
  | completed {t : State} (h : KeepsControl s t) : UserAnswer s t
  | accessFault (f : AccessFault) : UserAnswer s (s.accessFault f)
  | privilegeFault : UserAnswer s s.privilegeFault

theorem loadThen_userAnswer {s t : State} {va : Word} {n : Nat} {effect : Word → State}
    (h : loadThen s va n effect = .next t) (heffect : ∀ v, KeepsControl s (effect v)) : UserAnswer s t := by
  obtain ⟨f, -, rfl⟩ | ⟨v, -, rfl⟩ := loadThen_cases h
  · exact .accessFault f
  · exact .completed (heffect v)

theorem storeThen_userAnswer {s t : State} {va v : Word} {n : Nat} {effect : State → State}
    (h : storeThen s va n v effect = .next t) (heffect : ∀ m, KeepsControl s (effect (s.setMem m))) :
    UserAnswer s t := by
  obtain ⟨f, -, rfl⟩ | ⟨s', hwrite, rfl⟩ := storeThen_cases h
  · exact .accessFault f
  · obtain ⟨pas, -, rfl, -⟩ := State.memWrite_ok hwrite
    exact .completed (heffect _)

/-- Every instruction in the User ring answers one of the forms of `UserAnswer`. -/
theorem exec_userAnswer {i : Instr} {s t : State} (hring : s.userRing = true) (h : exec i s = .next t) :
    UserAnswer s t := by
  cases i with
  | nop | rdfl | rdmk | bal | beq | bne | bcs | bcc | bmi | bpl | bvs | bvc | bhi | bls | bge | blt | bgt | ble | bod
  | bev | bnan | binf | jmp | jmpr =>
    exact Host.Outcome.next.inj h ▸ .completed (.of_flagSet_eq rfl rfl rfl)
  | cmp | cmpi =>
    exact Host.Outcome.next.inj h ▸ .completed (.of_afterInt (s.flagSet_retireCompare _) rfl rfl)
  | add | sub | mul | divu | divs | remu | rems | and | or | xor | shl | shr | sar | mov | not | addi | andi | ori
  | xori | shli | shri | sari | lui | movi | ftoi | movfx | feq | flt | fle =>
    exact Host.Outcome.next.inj h ▸ .completed (.of_afterInt (s.flagSet_retireInt _ _) rfl rfl)
  | fadd | fsub | fmul | fdiv | fmov | itof | movxf =>
    exact Host.Outcome.next.inj h ▸ .completed (.of_afterFloat (s.flagSet_retireFloat _ _) rfl rfl)
  | ldw | ldh | ldhs | ldb | ldbs | fld | pop | ret =>
    exact loadThen_userAnswer h fun _ => .of_flagSet_eq rfl rfl rfl
  | stw | sth | stb | fst | push | call | callr =>
    exact storeThen_userAnswer h fun _ => .of_flagSet_eq rfl rfl rfl
  | halt | iret | wrfl | wrmk | rdmm | wrmm =>
    exact Host.Outcome.next.inj ((systemOnly_user _ hring).symm.trans h) ▸ .privilegeFault

/-! ## Traps taken (spec/60_exceptions.md R361, R366, R382) -/

/-- `t` is `s` after the trap of some cause and kind there is. -/
def TakesTrap (s t : State) : Prop :=
  ∃ cause kind retpc info, cause < 11 ∧ kind < 3 ∧ TrapTaken s t cause kind retpc info

theorem State.trapEntry_takesTrap (s : State) (c : Cause) (retpc info : Word) {kind : Nat} (hkind : kind < 3) :
    TakesTrap s (s.trapEntry c retpc info (BitVec.ofNat 32 kind)) :=
  ⟨_, kind, retpc, info, toNat_causeCode_lt c, hkind, s.trapEntry_trapTaken c retpc info hkind⟩

theorem State.accessFault_takesTrap (s : State) (f : AccessFault) : TakesTrap s (s.accessFault f) :=
  ⟨_, _, _, _, by cases f.fault <;> decide, by cases f.kind <;> decide, s.accessFault_trapTaken f⟩

theorem State.privilegeFault_takesTrap (s : State) : TakesTrap s s.privilegeFault := by
  rw [State.privilegeFault]
  split
  · exact s.trapEntry_takesTrap .privilegeFault s.pc _ (kind := 0) (by decide)
  · exact s.accessFault_takesTrap _

/-- A trap masks every line and changes neither memmap nor HALTED. -/
theorem TakesTrap.control {s t : State} (h : TakesTrap s t) :
    t.flagSet.mask = 0#8 ∧ t.memmap = s.memmap ∧ t.halted = s.halted := by
  obtain ⟨cause, kind, retpc, info, -, -, -, -, -, -, -, -, -, -, ⟨-, -, hmask⟩, -, -, -, -, hmap, hhalted, -⟩ := h
  exact ⟨hmask, hmap, hhalted⟩

/-- In the state a trap leaves the checkpoint takes no line (spec/40_engine.md R158). -/
theorem TakesTrap.checkpoint_eq {s t : State} (h : TakesTrap s t) : t.checkpoint = t := by
  obtain ⟨hmask, -, -⟩ := h.control
  exact State.checkpoint_of_mask_zero hmask

/-- The checkpoint leaves a state alone or takes a trap on it. -/
theorem State.checkpoint_eq_or_takesTrap (s : State) : s.checkpoint = s ∨ TakesTrap s s.checkpoint := by
  obtain heq | ⟨l, -, -, heq⟩ := s.checkpoint_cases
  · exact .inl heq
  · exact .inr (heq ▸ s.trapEntry_takesTrap (.line l) s.pc 0#32 (kind := 0) (by decide))

/-- In the User ring a step's instruction and checkpoint together complete and keep control, or take a trap on the state
the instruction began with, or take one on the state it completed with. -/
theorem UserAnswer.checkpoint_cases {s u : State} (h : UserAnswer s u) :
    (KeepsControl s u ∧ (u.checkpoint = u ∨ TakesTrap u u.checkpoint)) ∨ TakesTrap s u.checkpoint := by
  cases h with
  | completed hkeeps => exact .inl ⟨hkeeps, u.checkpoint_eq_or_takesTrap⟩
  | accessFault f =>
    have htrap := s.accessFault_takesTrap f
    exact .inr (by rwa [htrap.checkpoint_eq])
  | privilegeFault =>
    have htrap := s.privilegeFault_takesTrap
    exact .inr (by rwa [htrap.checkpoint_eq])

/-! ## Confinement (spec/60_exceptions.md R395) -/

/-- The state a step begins with keeps control: the latch changes PENDING and the raises alone. -/
theorem State.begun_keepsControl (s : State) : KeepsControl s s.begun :=
  .of_flagSet_eq s.begun_flagSet s.begun_memmap s.begun_halted

theorem KeepsControl.trans {s t u : State} (hst : KeepsControl s t) (htu : KeepsControl t u) : KeepsControl s u :=
  ⟨htu.ring.trans hst.ring, htu.translation.trans hst.translation, htu.mask.trans hst.mask, htu.lll.trans hst.lll,
    htu.memmap.trans hst.memmap, htu.halted.trans hst.halted⟩

/-- The states a User-ring step can take its trap on: the one it began with, or the one its instruction answers. -/
def TrapsFrom (s u : State) : Prop :=
  u = s.begun ∨ ∃ w i, s.begun.fetch = .ok w ∧ decode w = some i ∧ exec i s.begun = .next u

/-- A User-ring step of a running core halts on an invalid word, keeps control, or takes a trap on a state that has
kept control. -/
theorem step_user_cases {s t : State} (hrun : s.Running) (hring : s.flagSet.r = true) (hstep : step s = .next t) :
    (∃ w, t = s.begun.haltInvalid w) ∨ KeepsControl s t ∨ ∃ u, TrapsFrom s u ∧ KeepsControl s u ∧ TakesTrap u t := by
  obtain ⟨hhalted, -⟩ | ⟨-, f, -, rfl⟩ | ⟨-, w, -, -, rfl⟩ | ⟨-, w, i, u, hfetch, hdecode, hexec, rfl⟩ :=
    step_cases hstep
  · exact absurd hrun hhalted
  · exact .inr (.inr ⟨_, .inl rfl, s.begun_keepsControl, s.begun.accessFault_takesTrap f⟩)
  · exact .inl ⟨w, rfl⟩
  · have hanswer := exec_userAnswer (s.begun_keepsControl.ring.trans hring) hexec
    obtain ⟨hkeeps, heq | htrap⟩ | htrap := hanswer.checkpoint_cases
    · exact .inr (.inl (by rw [heq]; exact s.begun_keepsControl.trans hkeeps))
    · exact .inr (.inr ⟨u, .inr ⟨w, i, hfetch, hdecode, hexec⟩, s.begun_keepsControl.trans hkeeps, htrap⟩)
    · exact .inr (.inr ⟨_, .inl rfl, s.begun_keepsControl, htrap⟩)

theorem State.Running.halted_ne_haltExecuted {s : State} (h : s.Running) (a : Word) : s.halted ≠ .haltExecuted a := by
  rw [h]
  nofun

theorem State.haltInvalid_halted_ne_haltExecuted (s : State) (w a : Word) :
    (s.haltInvalid w).halted ≠ .haltExecuted a := by
  rw [State.haltInvalid, State.setHalted_halted]
  nofun

/-- Settles O50: of the three ends of a User-ring step none writes memmap or executes HALT, and only the trap leaves
the ring, M, MASK or LLL other than they were. -/
theorem userRingIsConfined : Obligations.UserRingIsConfined := by
  intro s t hrun hring hstep
  obtain ⟨w, rfl⟩ | hkeeps | ⟨u, hfrom, hkeeps, htrap⟩ := step_user_cases hrun hring hstep
  · have hflags : (s.begun.haltInvalid w).flagSet = s.flagSet := s.begun_flagSet
    refine ⟨s.begun_memmap, s.begun.haltInvalid_halted_ne_haltExecuted w, .inl ?_⟩
    rw [hflags]
    exact ⟨hring, rfl, rfl, rfl⟩
  · have hrun' : t.Running := hkeeps.halted.trans hrun
    exact ⟨hkeeps.memmap, hrun'.halted_ne_haltExecuted,
      .inl ⟨hkeeps.ring.trans hring, hkeeps.translation, hkeeps.mask, hkeeps.lll⟩⟩
  · obtain ⟨-, hmap, hhalted⟩ := htrap.control
    have hrun' : t.Running := (hhalted.trans hkeeps.halted).trans hrun
    exact ⟨hmap.trans hkeeps.memmap, hrun'.halted_ne_haltExecuted,
      .inr ⟨u, hfrom, hkeeps.ring.trans hring, hkeeps.translation, hkeeps.mask, hkeeps.lll, hkeeps.memmap, htrap⟩⟩

end Sys2Proof.Machine
end
